-- ==== Sys2Proof/Word.lean ====
section
/-! DEFINITION. The plain types: bytes, slot and input numbers, and tables of a fixed number of records. -/

namespace Sys2Proof

abbrev Byte := BitVec 8

/-- A desk slot, 0..5 (R105). Slot 0 is the system slot. -/
abbrev Slot := Fin 6

/-- An input, 0..63 (R1). -/
abbrev Input := Fin 64

/-- A fixed number of like records, held as a list of that length. -/
structure Table (α : Type) (n : Nat) where
  data : List α
  size : data.length = n
deriving DecidableEq, Repr

/-- The record at a position. -/
def Table.get {α : Type} {n : Nat} (t : Table α n) (i : Fin n) : α :=
  t.data[i.val]'(by rw [t.size]; exact i.isLt)

/-- The table with one record replaced. -/
def Table.set {α : Type} {n : Nat} (t : Table α n) (i : Fin n) (x : α) : Table α n :=
  ⟨t.data.set i x, by simp [t.size]⟩

/-- The table whose record at `i` is `f i`. -/
def Table.ofFn {α : Type} {n : Nat} (f : Fin n → α) : Table α n :=
  ⟨List.ofFn f, by simp⟩

/-- The table with every record changed by `f`. -/
def Table.map {α β : Type} {n : Nat} (f : α → β) (t : Table α n) : Table β n :=
  ⟨t.data.map f, by simp [t.size]⟩

/-- The table with the same record everywhere. -/
def Table.fill {α : Type} (n : Nat) (x : α) : Table α n :=
  ⟨List.replicate n x, by simp⟩

@[simp] theorem Table.get_ofFn {α : Type} {n : Nat} (f : Fin n → α) (i : Fin n) :
    (Table.ofFn f).get i = f i := by
  simp [Table.get, Table.ofFn]

@[simp] theorem Table.get_map {α β : Type} {n : Nat} (f : α → β) (t : Table α n) (i : Fin n) :
    (t.map f).get i = f (t.get i) := by
  simp [Table.get, Table.map]

@[simp] theorem Table.get_fill {α : Type} {n : Nat} (x : α) (i : Fin n) :
    (Table.fill n x).get i = x := by
  simp [Table.get, Table.fill]

@[simp] theorem Table.get_set_self {α : Type} {n : Nat} (t : Table α n) (i : Fin n) (x : α) :
    (t.set i x).get i = x := by
  simp [Table.get, Table.set]

@[simp] theorem Table.get_set_ne {α : Type} {n : Nat} (t : Table α n) {i j : Fin n} (x : α)
    (h : j ≠ i) : (t.set i x).get j = t.get j := by
  have : (i : Nat) ≠ j := fun e => h (Fin.ext e.symm)
  simp [Table.get, Table.set, this]

theorem Table.get_set {α : Type} {n : Nat} (t : Table α n) (i j : Fin n) (x : α) :
    (t.set i x).get j = if j = i then x else t.get j := by
  by_cases h : j = i
  · subst h; simp
  · simp [h]

/-- Two tables are equal when every record is. -/
theorem Table.ext_get {α : Type} {n : Nat} {t u : Table α n} (h : ∀ i, t.get i = u.get i) :
    t = u := by
  obtain ⟨td, ts⟩ := t
  obtain ⟨ud, us⟩ := u
  have : td = ud := by
    apply List.ext_getElem (by omega)
    intro i h1 h2
    have := h ⟨i, by omega⟩
    simpa [Table.get] using this
  subst this
  rfl

@[simp] theorem Table.set_get {α : Type} {n : Nat} (t : Table α n) (i : Fin n) :
    t.set i (t.get i) = t := by
  apply Table.ext_get
  intro j
  rw [Table.get_set]
  split
  · subst_vars; rfl
  · rfl

end Sys2Proof
end

