-- ==== Sys2Proof/Config.lean ====
section
/-! DEFINITION. The free values: what the spec leaves open and the machine does not stop for. -/

namespace Sys2Proof

/-- A byte the spec does not state, named by the counter `State.freeCount`: bits of an image or of
SDO that no rule gives a value (log entries 5 and 6). DESIGN CHOICE: no body, so no proof can use
its value. -/
opaque Config.freeByte : Nat → Byte

/-- An acknowledgement that meets an outstanding write on a path where late ones may still come is a late
one, named by the counter `State.freeCount` (log entry 21). DESIGN CHOICE: no body, as the spec does not
say how the part tells the two apart. -/
opaque Config.ackIsLate : Nat → Bool

end Sys2Proof
end

