-- ==== Sys2Proof/Syntax.lean ====
section
/-! DEFINITION. The commands, one constructor per row of spec/opcode_table.json, and the operation
records and bundles that the control port carries (R151). -/

namespace Sys2Proof

/-- The input modes (R1), coded 0..3 in this order (R151). -/
inductive Mode
  | off | mic | line | inst
deriving DecidableEq, Repr

/-- The guard policies (R95), coded 0..2 in this order (R151). -/
inductive Policy
  | off | report | backoff
deriving DecidableEq, Repr

/-- An input pattern (R123): a base and a mask of don't-care bits. -/
structure Pattern where
  base : BitVec 6
  mask : BitVec 6
deriving DecidableEq, Repr

/-- A notice set (R151): one bit for each notice of R137. -/
structure NoticeSet where
  response : Bool
  marks : Bool
  ownership : Bool
  glideDone : Bool
  frontend : Bool
  overload : Bool
  overrun : Bool
  supply : Bool
deriving DecidableEq, Repr

/-- A permission set (R107, R151). -/
structure Perms where
  own : Bool
  preempt : Bool
  broadcast : Bool
  observer : Bool
deriving DecidableEq, Repr

/-- The settings a CONFIGURE INPUT carries, each optional (R3, R96, R151). -/
structure InputConfig where
  isProtected : Option Bool
  lock : Option Bool
  policy : Option Policy
  threshold : Option Byte
  window : Option Byte
  backStep : Option Byte
deriving DecidableEq, Repr

/-- An operation of a bundle with its parameters (R151). Numbers that stand in a range are held as
the bits carried; the owning rule clamps them. -/
inductive Op
  | openTap (p : Pattern) (level : Option (BitVec 16))
  | closeTap (p : Pattern)
  | setLevel (p : Pattern) (relative : Bool) (value : BitVec 16)
  | setTapMute (p : Pattern) (on : Bool)
  | readTap (p : Pattern)
  | claim (p : Pattern) (force : Bool)
  | release (p : Pattern)
  | setGain (p : Pattern) (relative : Bool) (value : Byte) (rate : Option Byte)
  | stopGlide (p : Pattern)
  | setPhantom (p : Pattern) (on : Bool)
  | setMode (p : Pattern) (mode : Mode)
  | recheckFrontEnd (p : Pattern)
  | readInput (p : Pattern)
  | readMarks
  | clearMarks (p : Pattern)
  | setNoticeEnables (on off : NoticeSet)
  | clearNotices (set : NoticeSet)
  | keepalive
  | configureInput (p : Pattern) (settings : InputConfig)
  | configureDesk (slot : BitVec 3) (rank : Option Byte) (perms : Option Perms)
      (timeout : Option Byte)
  | openDesk (slot : BitVec 3)
  | closeDesk (slot : BitVec 3)
  | readDesk (slot : BitVec 3)
  | setTiming (settle discharge align : Option Byte)
  | readSystemStatus
  | clearSupply
  | controlReset
deriving DecidableEq, Repr

/-- An operation record as the bundle carries it: the kind code and the parameter bytes (R151). -/
structure OpRec where
  kind : Byte
  params : List Byte
deriving DecidableEq, Repr

/-- An accepted bundle: its tag and its operation records (R151). -/
structure Bundle where
  tag : Byte
  ops : List OpRec
deriving DecidableEq, Repr

/-- The commands. The rows OPEN_TAP to CONTROL_RESET and UNKNOWN_OPERATION_KIND are steps of the
bundle executor: one application of the next operation of the bundle in execution, whose parameters
stand in the bundle (R119, R121). So they carry no operand here. -/
inductive Instr
  /-- R144: a WRITE BUNDLE transaction with its slot field, the completed bytes after the command
  byte, and the number of bits of an incomplete last byte. -/
  | writeBundle (slot : Slot) (bytes : List Byte) (stray : Fin 8)
  /-- R147: a READ RESPONSE transaction that clocks `n` complete bytes after the command byte. -/
  | readResponse (slot : Slot) (n : Nat)
  /-- R149: a READ PORT STATUS transaction that clocks `n` complete bytes after the command byte. -/
  | readPortStatus (n : Nat)
  /-- R148: a SET QUEUE THRESHOLD transaction with the completed bytes after the command byte. -/
  | setQueueThreshold (slot : Slot) (bytes : List Byte)
  /-- R143: a transaction released before its command byte was complete (`none`), or one whose
  command byte makes it ignored, with the number of complete bytes clocked after it. -/
  | ignoredTransaction (cmd : Option Byte) (n : Nat)
  | bundleTake
  | bundleEnd
  | openTap
  | closeTap
  | setLevel
  | setTapMute
  | readTap
  | claim
  | release
  | setGain
  | stopGlide
  | setPhantom
  | setMode
  | recheckFrontEnd
  | readInput
  | readMarks
  | clearMarks
  | setNoticeEnables
  | clearNotices
  | keepalive
  | configureInput
  | configureDesk
  | openDesk
  | closeDesk
  | readDesk
  | setTiming
  | readSystemStatus
  | clearSupply
  | controlReset
  | powerOnReset
  | crstAssert
  | psagAssert
  | psagDeassert
  | frontEndAck (k : Input)
  | writeFail (k : Input)
  | muteRampEnd (k : Input)
  | settleTimerExpiry (k : Input)
  | unmuteRampEnd (k : Input)
  | stepTimerExpiry (k : Input)
  | clipIndication (k : Input)
  | windowExpiry (k : Input)
  | presenceTimerExpiry (d : Slot)
  | glideDonePulseEnd (d : Slot)
  /-- R36: the release of the `n`-th (from 0, oldest first) aligned change still waiting at the tap
  of slot `d` on input `k`. -/
  | alignedChangeRelease (d : Slot) (k : Input) (n : Nat)
  /-- R75: a converter sample of input `k`, a signed 24-bit number. -/
  | converterSample (k : Input) (sample : BitVec 24)
  | unknownOperationKind
deriving DecidableEq, Repr

end Sys2Proof
end

