-- ==== Sys2Proof/Decode.lean ====
section
/-! DEFINITION. Reading the bytes that cross the control port: the command byte of a transaction (R143), the
frame of a bundle and its operation records (R144, R151), with an encoder beside them; and the table's
decoder. -/

namespace Sys2Proof

/-- No row of spec/opcode_table.json gives its command bits, so no word spells a command. -/
def decodeTableWord (nbits w : Nat) : Option Instr :=
  match nbits, w with
  | _, _ => none

/-! ## Transactions -/

/-- Bits 7..4 of a command byte (R143). -/
def commandCode (cmd : Byte) : Nat := cmd.toNat / 16

/-- Bits 2..0 of a command byte (R143). -/
def slotField (cmd : Byte) : Nat := cmd.toNat % 8

/-- The slot that a command byte names; a slot field of 6 or 7 names none (R143). -/
def commandSlot (cmd : Byte) : Option Slot :=
  if h : slotField cmd < 6 then some ⟨slotField cmd, h⟩ else none

/-- R143: the command byte of a transaction that is ignored as a whole: its code is 0 or above 4, or
its slot field is 6 or 7 in a command that uses it (all but READ PORT STATUS, code 3). -/
def ignorable (cmd : Byte) : Bool :=
  commandCode cmd == 0 || 4 < commandCode cmd || (6 ≤ slotField cmd && commandCode cmd != 3)

/-- The transaction whose completed bytes are `bytes`, the command byte first, and which is released
`stray` bits into a further byte (R143). Only a WRITE BUNDLE is judged on those bits (R144); the bits of a
command byte that is not complete name no command (DESIGN CHOICE, log entry 23). -/
def readTransaction (bytes : List Byte) (stray : Fin 8) : Instr :=
  match bytes with
  | [] => .ignoredTransaction none 0
  | cmd :: rest =>
    match commandCode cmd, commandSlot cmd with
    | 1, some d => .writeBundle d rest stray
    | 2, some d => .readResponse d rest.length
    | 3, _ => .readPortStatus rest.length
    | 4, some d => .setQueueThreshold d rest
    | _, _ => .ignoredTransaction (some cmd) rest.length

/-! ## Fields -/

/-- Bit `i` of a byte. -/
def bit (b : Byte) (i : Nat) : Bool := b.getLsbD i

/-- The byte whose bits, from bit 0 up, are the list's. -/
def byteOfBits (bs : List Bool) : Byte :=
  BitVec.ofNat 8 (bs.foldr (fun b n => b.toNat + 2 * n) 0)

/-- A pattern is two bytes, base then mask, each in bits 5..0 (R151). -/
def Pattern.ofBytes (base mask : Byte) : Pattern := ⟨base.setWidth 6, mask.setWidth 6⟩

def Pattern.toBytes (p : Pattern) : List Byte := [p.base.setWidth 8, p.mask.setWidth 8]

/-- The bits of a notice set (R151). -/
def NoticeSet.ofByte (b : Byte) : NoticeSet :=
  ⟨bit b 0, bit b 1, bit b 2, bit b 3, bit b 4, bit b 5, bit b 6, bit b 7⟩

def NoticeSet.toByte (n : NoticeSet) : Byte :=
  byteOfBits [n.response, n.marks, n.ownership, n.glideDone, n.frontend, n.overload, n.overrun,
    n.supply]

/-- Some notice stands in both sets (R151). -/
def NoticeSet.meets (a b : NoticeSet) : Bool :=
  (a.response && b.response) || (a.marks && b.marks) || (a.ownership && b.ownership) ||
  (a.glideDone && b.glideDone) || (a.frontend && b.frontend) || (a.overload && b.overload) ||
  (a.overrun && b.overrun) || (a.supply && b.supply)

/-- The bits of a permission set (R151). -/
def Perms.ofByte (b : Byte) : Perms := ⟨bit b 0, bit b 1, bit b 2, bit b 3⟩

def Perms.toByte (p : Perms) : Byte := byteOfBits [p.own, p.preempt, p.broadcast, p.observer]

/-- A mode code (R151); a code above 3 names nothing. -/
def Mode.ofCode (b : Byte) : Option Mode :=
  match b.toNat with
  | 0 => some .off
  | 1 => some .mic
  | 2 => some .line
  | 3 => some .inst
  | _ => none

def Mode.code : Mode → Nat
  | .off => 0
  | .mic => 1
  | .line => 2
  | .inst => 3

/-- A policy code (R151); a code above 2 names nothing. -/
def Policy.ofCode (b : Byte) : Option Policy :=
  match b.toNat with
  | 0 => some .off
  | 1 => some .report
  | 2 => some .backoff
  | _ => none

def Policy.code : Policy → Nat
  | .off => 0
  | .report => 1
  | .backoff => 2

/-- A phantom or mute code: 0 off, 1 on, and nothing above 1 (R151). -/
def onOfCode (b : Byte) : Option Bool :=
  match b.toNat with
  | 0 => some false
  | 1 => some true
  | _ => none

def onCode (on : Bool) : Byte := BitVec.ofNat 8 on.toNat

/-- A field whose presence bit is clear is absent, and its byte is disregarded (R151). -/
def present {α : Type} (there : Bool) (x : α) : Option α := if there then some x else none

/-- The byte of an optional field: 0 where it is absent. -/
def byteOr (b : Option Byte) : Byte := b.getD 0

/-! ## Operation records -/

/-- The settings of a CONFIGURE INPUT (R151); `none` for a policy code that names nothing. -/
def InputConfig.ofBytes (pres bits pol thr win stp : Byte) : Option InputConfig :=
  let withPolicy (policy : Option Policy) : InputConfig :=
    ⟨present (bit pres 0) (bit bits 0), present (bit pres 1) (bit bits 1), policy,
      present (bit pres 3) thr, present (bit pres 4) win, present (bit pres 5) stp⟩
  if bit pres 2 then (Policy.ofCode pol).map (fun q => withPolicy (some q)) else some (withPolicy none)

def InputConfig.toBytes (c : InputConfig) : List Byte :=
  [byteOfBits [c.isProtected.isSome, c.lock.isSome, c.policy.isSome, c.threshold.isSome,
      c.window.isSome, c.backStep.isSome],
    byteOfBits [c.isProtected.getD false, c.lock.getD false],
    BitVec.ofNat 8 (c.policy.getD .off).code, byteOr c.threshold, byteOr c.window, byteOr c.backStep]

/-- The parameters of a kind whose only parameter is a pattern (R151). -/
def patternOnly (f : Pattern → Op) : List Byte → Option Op
  | [b, m] => some (f (.ofBytes b m))
  | _ => none

/-- The parameters of a kind that carries a pattern and one more byte (R151). -/
def patternAnd (f : Pattern → Byte → Option Op) : List Byte → Option Op
  | [b, m, x] => f (.ofBytes b m) x
  | _ => none

/-- The parameters of a kind that carries a pattern, a flags byte and two more bytes (R151). -/
def patternFlagsTwo (f : Pattern → Byte → Byte → Byte → Op) : List Byte → Option Op
  | [b, m, x, y, z] => some (f (.ofBytes b m) x y z)
  | _ => none

/-- The parameters of a kind that carries none (R151). -/
def noParams (o : Op) : List Byte → Option Op
  | [] => some o
  | _ => none

/-- The parameters of a kind that carries one byte (R151). -/
def oneByte (f : Byte → Op) : List Byte → Option Op
  | [x] => some (f x)
  | _ => none

/-- SET NOTICE ENABLES carries two notice sets that name no notice in common (R151). -/
def enablesParams : List Byte → Option Op
  | [x, y] =>
    if (NoticeSet.ofByte x).meets (.ofByte y) then none
    else some (.setNoticeEnables (.ofByte x) (.ofByte y))
  | _ => none

def configureInputParams : List Byte → Option Op
  | [b, m, pres, bits, pol, thr, win, stp] =>
    (InputConfig.ofBytes pres bits pol thr win stp).map (.configureInput (.ofBytes b m))
  | _ => none

def configureDeskParams : List Byte → Option Op
  | [d, pres, rank, perms, t] =>
    some (.configureDesk (d.setWidth 3) (present (bit pres 0) rank)
      (present (bit pres 1) (.ofByte perms)) (present (bit pres 2) t))
  | _ => none

def setTimingParams : List Byte → Option Op
  | [pres, x, y, z] =>
    some (.setTiming (present (bit pres 0) x) (present (bit pres 1) y) (present (bit pres 2) z))
  | _ => none

/-- The operation a record carries (R151). `none` is a kind the part does not know, a parameter
length that is not the kind's, or a coded value that names nothing: each is refused BAD_OP (R125,
R144). -/
def decodeOp (r : OpRec) : Option Op :=
  match r.kind.toNat with
  | 0x01 => patternFlagsTwo (fun p f h l => .openTap p (present (bit f 0) (h ++ l))) r.params
  | 0x02 => patternOnly .closeTap r.params
  | 0x03 => patternFlagsTwo (fun p f h l => .setLevel p (bit f 0) (h ++ l)) r.params
  | 0x04 => patternAnd (fun p v => (onOfCode v).map (.setTapMute p)) r.params
  | 0x05 => patternOnly .readTap r.params
  | 0x06 => patternAnd (fun p f => some (.claim p (bit f 0))) r.params
  | 0x07 => patternOnly .release r.params
  | 0x08 => patternFlagsTwo (fun p f v t => .setGain p (bit f 0) v (present (bit f 1) t)) r.params
  | 0x09 => patternOnly .stopGlide r.params
  | 0x0A => patternAnd (fun p v => (onOfCode v).map (.setPhantom p)) r.params
  | 0x0B => patternAnd (fun p v => (Mode.ofCode v).map (.setMode p)) r.params
  | 0x0C => patternOnly .recheckFrontEnd r.params
  | 0x10 => patternOnly .readInput r.params
  | 0x11 => noParams .readMarks r.params
  | 0x12 => patternOnly .clearMarks r.params
  | 0x13 => enablesParams r.params
  | 0x14 => oneByte (fun x => .clearNotices (.ofByte x)) r.params
  | 0x15 => noParams .keepalive r.params
  | 0x20 => configureInputParams r.params
  | 0x21 => configureDeskParams r.params
  | 0x22 => oneByte (fun d => .openDesk (d.setWidth 3)) r.params
  | 0x23 => oneByte (fun d => .closeDesk (d.setWidth 3)) r.params
  | 0x24 => oneByte (fun d => .readDesk (d.setWidth 3)) r.params
  | 0x25 => setTimingParams r.params
  | 0x26 => noParams .readSystemStatus r.params
  | 0x27 => noParams .clearSupply r.params
  | 0x28 => noParams .controlReset r.params
  | _ => none

/-- The kind code of an operation (R151). -/
def Op.kind : Op → Byte
  | .openTap _ _ => 0x01
  | .closeTap _ => 0x02
  | .setLevel _ _ _ => 0x03
  | .setTapMute _ _ => 0x04
  | .readTap _ => 0x05
  | .claim _ _ => 0x06
  | .release _ => 0x07
  | .setGain _ _ _ _ => 0x08
  | .stopGlide _ => 0x09
  | .setPhantom _ _ => 0x0A
  | .setMode _ _ => 0x0B
  | .recheckFrontEnd _ => 0x0C
  | .readInput _ => 0x10
  | .readMarks => 0x11
  | .clearMarks _ => 0x12
  | .setNoticeEnables _ _ => 0x13
  | .clearNotices _ => 0x14
  | .keepalive => 0x15
  | .configureInput _ _ => 0x20
  | .configureDesk _ _ _ _ => 0x21
  | .openDesk _ => 0x22
  | .closeDesk _ => 0x23
  | .readDesk _ => 0x24
  | .setTiming _ _ _ => 0x25
  | .readSystemStatus => 0x26
  | .clearSupply => 0x27
  | .controlReset => 0x28

/-- The kinds the part knows (R151). -/
def kindKnown (kind : Byte) : Bool :=
  (0x01 ≤ kind.toNat && kind.toNat ≤ 0x0C) || (0x10 ≤ kind.toNat && kind.toNat ≤ 0x15) ||
  (0x20 ≤ kind.toNat && kind.toNat ≤ 0x28)

/-- The high and the low byte of a 16-bit number, most significant first (R151). -/
def bytesOf16 (v : BitVec 16) : List Byte := [v.extractLsb' 8 8, v.extractLsb' 0 8]

/-- The parameter bytes of an operation (R151), 0 in every bit no field of it uses. -/
def Op.params : Op → List Byte
  | .openTap p level => p.toBytes ++ byteOfBits [level.isSome] :: bytesOf16 (level.getD 0)
  | .closeTap p => p.toBytes
  | .setLevel p relative v => p.toBytes ++ byteOfBits [relative] :: bytesOf16 v
  | .setTapMute p on => p.toBytes ++ [onCode on]
  | .readTap p => p.toBytes
  | .claim p force => p.toBytes ++ [byteOfBits [force]]
  | .release p => p.toBytes
  | .setGain p relative v rate =>
    p.toBytes ++ [byteOfBits [relative, rate.isSome], v, byteOr rate]
  | .stopGlide p => p.toBytes
  | .setPhantom p on => p.toBytes ++ [onCode on]
  | .setMode p m => p.toBytes ++ [BitVec.ofNat 8 m.code]
  | .recheckFrontEnd p => p.toBytes
  | .readInput p => p.toBytes
  | .readMarks => []
  | .clearMarks p => p.toBytes
  | .setNoticeEnables on off => [on.toByte, off.toByte]
  | .clearNotices set => [set.toByte]
  | .keepalive => []
  | .configureInput p c => p.toBytes ++ c.toBytes
  | .configureDesk d rank perms t =>
    [d.setWidth 8, byteOfBits [rank.isSome, perms.isSome, t.isSome], byteOr rank,
      (perms.map Perms.toByte).getD 0, byteOr t]
  | .openDesk d => [d.setWidth 8]
  | .closeDesk d => [d.setWidth 8]
  | .readDesk d => [d.setWidth 8]
  | .setTiming x y z =>
    [byteOfBits [x.isSome, y.isSome, z.isSome], byteOr x, byteOr y, byteOr z]
  | .readSystemStatus => []
  | .clearSupply => []
  | .controlReset => []

/-- The record of an operation (R151). -/
def encodeOp (o : Op) : OpRec := ⟨o.kind, o.params⟩

/-- Operations marked "system slot" in R125. -/
def Op.systemOnly : Op → Bool
  | .configureInput _ _ | .configureDesk _ _ _ _ | .openDesk _ | .closeDesk _ | .readDesk _
  | .setTiming _ _ _ | .readSystemStatus | .clearSupply | .controlReset => true
  | _ => false

/-! ## Bundles -/

/-- Why a WRITE BUNDLE frame is MALFORMED (R144). -/
inductive FrameProblem
  | strayBits
  | tooShort
  | badCount
  | badLength
  | badRecords
deriving DecidableEq, Repr

/-- Exactly `n` operation records, each with a parameter length of 0..15, and no byte after them
(R144). -/
def parseRecords : Nat → List Byte → Option (List OpRec)
  | 0, [] => some []
  | 0, _ :: _ => none
  | n + 1, kind :: len :: rest =>
    if len.toNat ≤ 15 ∧ len.toNat ≤ rest.length then
      (parseRecords n (rest.drop len.toNat)).map (⟨kind, rest.take len.toNat⟩ :: ·)
    else none
  | _ + 1, _ => none

/-- The bundle a frame carries (R144, R151); `stray` is the number of bits beyond the last whole
byte. -/
def parseBundle (bytes : List Byte) (stray : Nat) : Except FrameProblem Bundle :=
  if stray ≠ 0 then .error .strayBits
  else
    match bytes with
    | count :: hi :: lo :: tag :: rest =>
      if count.toNat < 1 ∨ 16 < count.toNat then .error .badCount
      else if (hi ++ lo).toNat ≠ bytes.length then .error .badLength
      else
        match parseRecords count.toNat rest with
        | some ops => .ok ⟨tag, ops⟩
        | none => .error .badRecords
    | _ => .error .tooShort

/-- The bytes of an operation record (R151). -/
def OpRec.toBytes (r : OpRec) : List Byte := r.kind :: BitVec.ofNat 8 r.params.length :: r.params

/-- The bytes of a bundle (R151). -/
def Bundle.toBytes (b : Bundle) : List Byte :=
  let body := b.ops.flatMap OpRec.toBytes
  BitVec.ofNat 8 b.ops.length :: bytesOf16 (BitVec.ofNat 16 (body.length + 4)) ++ b.tag :: body

end Sys2Proof
end

