-- ==== Sys2Proof/Machine/State.lean ====
section
/-! DEFINITION. The state of the part, as plain data: the 64 input records with all that belongs to
an input, the six slot records, the bundle executor, the system and control-port registers, and the
queue of commands that are waiting. The reset values stand beside each record. -/

namespace Sys2Proof.Machine

/-- No event of the part stops it, so no fault exists. -/
inductive Fault
deriving DecidableEq, Repr

/-- Why a command has no meaning. -/
inductive Refusal
  /-- Raised by an arm of `exec` whose command is not modelled; no arm raises it. Safe: the model
  stops. -/
  | notModelled (mnemonic : String)
deriving DecidableEq, Repr

/-! ## Front end -/

/-- What a mode or phantom change brings (R14): its kind with its new value. -/
inductive FrontValue
  | mode (m : Mode)
  | phantom (on : Bool)
deriving DecidableEq, Repr

/-- The in-flight change of a sequencer (R14). -/
structure Change where
  value : FrontValue
  desk : Slot
  abandoned : Bool
deriving DecidableEq, Repr

/-- A pending front-end request (R17). -/
structure Request where
  value : FrontValue
  desk : Slot
deriving DecidableEq, Repr

/-- The sequencer states (section 1.6), coded 0..5 in this order (R153). -/
inductive SeqState
  | idle | muting | switching | settling | unmuting | halted
deriving DecidableEq, Repr

/-- Who set a glide's target, and under whom a step was issued (R77, R83). -/
inductive GlideSource
  | owner | guard
deriving DecidableEq, Repr

/-- A front-end write with the values it carries (R5). -/
inductive Write
  | gain (g : Nat)
  | mode (m : Mode) (g : Nat)
  | phantom (on : Bool)
deriving DecidableEq, Repr

/-- A write group that waits on a command path, by its source (R5). -/
inductive Group
  | step | switching | recheck | startUp
deriving DecidableEq, Repr

/-- What an outstanding write belongs to: a glide step with the source it was issued under (R83), a
switching write, or the write of that number of a recheck or start-up group (R20, R8). -/
inductive Issuer
  | step (source : GlideSource)
  | switching
  | recheck (number : Fin 3)
  | startUp (number : Fin 2)
deriving DecidableEq, Repr

/-- The outstanding write of a command path, with the milliseconds left of its timeout (R5, R7). -/
structure Outstanding where
  write : Write
  issuer : Issuer
  left : Nat
deriving DecidableEq, Repr

/-! ## Glides and the guard -/

inductive GlideState
  | waiting | stepping
deriving DecidableEq, Repr

/-- The glide's one step (R77). -/
inductive StepState
  | absent | ready | outstanding
deriving DecidableEq, Repr

/-- A staged retarget (R77). -/
structure Retarget where
  target : Nat
  rate : Nat
deriving DecidableEq, Repr

/-- A glide record (R77). Gains are in dB, the rate and the time left in ms. -/
structure Glide where
  target : Nat
  rate : Nat
  source : GlideSource
  state : GlideState
  step : StepState
  timer : Option Nat
  staged : Option Retarget
deriving DecidableEq, Repr

/-- The guard's last outcome (R95), coded 0..4 in this order (R153). -/
inductive GuardOutcome
  | none | reported | backedOff | atFloor | inFault
deriving DecidableEq, Repr

/-- A guard record (R95). The window setting is in units of 250 ms, the time left in ms. -/
structure Guard where
  policy : Policy
  threshold : Nat
  window : Nat
  backStep : Nat
  count : Nat
  timer : Option Nat
  total : Nat
  last : GuardOutcome
deriving DecidableEq, Repr

/-- The guard record after power-on reset (R95). -/
def Guard.reset : Guard := ⟨.off, 4, 4, 3, 0, none, 0, .none⟩

/-! ## Taps -/

/-- The tap roles (R23), coded 0..2 in this order (R153). -/
inductive Role
  | owner | tracking | clamped
deriving DecidableEq, Repr

/-- An aligned trim change not yet released, with the sample periods left of its delay (R36). -/
structure Aligned where
  trim : Int
  left : Nat
deriving DecidableEq, Repr

/-- A crossfade toward the coefficient of the trim in force: the coefficient it started from and the
samples done (R73). -/
structure Fade where
  start : Int
  done : Nat
deriving DecidableEq, Repr

/-- A tap record (R23) with what the feed mixer holds for it: the desk gate count (R74), the applied
coefficient (R73), the trim in force for the audio, the crossfade in progress and the aligned
changes still waiting, in the order in which they were made (R36). -/
structure Tap where
  role : Role
  desired : Option Int
  trim : Int
  mute : Bool
  gate : Nat
  coef : Int
  inForce : Int
  fade : Option Fade
  waiting : List Aligned
deriving DecidableEq, Repr

/-! ## Inputs -/

/-- All that belongs to one input: its input record (R1), sequencer (R14), command path (R5), owner
and claim queue (R41, R42), glide (R77), guard (R95), taps (R23), sequence gate count (R74) and last
feed samples (R75). -/
structure Inp where
  mode : Mode
  gain : Nat
  phantom : Bool
  lock : Bool
  isProtected : Bool
  fault : Bool
  recheck : Bool
  seq : SeqState
  inFlight : Option Change
  request : Option Request
  settleLeft : Option Nat
  outstanding : Option Outstanding
  waiting : List Group
  /-- The model's own: the writes that failed (R7) or that a power-on reset forgot (R8, R94), whose late
  acknowledgements may still come (log entry 21). -/
  unanswered : Nat
  owner : Option Slot
  queue : List Slot
  glide : Option Glide
  guard : Guard
  taps : Table (Option Tap) 6
  seqGate : Nat
  feed : Table Int 6
deriving DecidableEq, Repr

/-- R7: a write fails when 4 ms pass from its issue. -/
def ackTimeout : Nat := 4

/-- The samples in 10 ms (R74): a gate's full count. -/
def gateSamples (rate96 : Bool) : Nat := if rate96 then 960 else 480

/-- An input after power-on reset, with its start-up group issued: a mode write carrying OFF with
gain 0 is outstanding, and its phantom write follows it (R8). -/
def Inp.reset (rate96 : Bool) : Inp where
  mode := .off
  gain := 0
  phantom := false
  lock := false
  isProtected := false
  fault := false
  recheck := false
  seq := .idle
  inFlight := none
  request := none
  settleLeft := none
  outstanding := some ⟨.mode .off 0, .startUp 0, ackTimeout⟩
  waiting := []
  unanswered := 0
  owner := none
  queue := []
  glide := none
  guard := .reset
  taps := .fill 6 none
  seqGate := gateSamples rate96
  feed := .fill 6 0

/-! ## Slots -/

/-- The slot states (R105), coded 0..2 in this order (R152). -/
inductive DeskState
  | closed | opened | absent
deriving DecidableEq, Repr

/-- The sticky notices (R137). -/
inductive Sticky
  | ownership | glideDone | frontend | overload | overrun | supply
deriving DecidableEq, Repr

/-- The sticky notice flags of a slot (R137). -/
structure StickyFlags where
  ownership : Bool
  glideDone : Bool
  frontend : Bool
  overload : Bool
  overrun : Bool
  supply : Bool
deriving DecidableEq, Repr

def StickyFlags.clear : StickyFlags := ⟨false, false, false, false, false, false⟩

/-- The result codes (R128). -/
inductive ResultCode
  | done | clamped | queued | pending | noMatch | noTap | tapOpen | notOwner | denied | busy
  | locked | phantomOn | modeConflict | supply | fault | badPattern | badOp | deskState
deriving DecidableEq, Repr

/-- The result of one operation (R126). An absent image is the empty list. -/
structure OpResult where
  code : ResultCode
  matched : Nat
  applied : Nat
  refused : Nat
  first : Option Input
  image : List Byte
deriving DecidableEq, Repr

/-- A response in a response queue (R152). -/
structure Response where
  tag : Byte
  results : List OpResult
deriving DecidableEq, Repr

/-- One slot: its record in the desk table (R105), its marks, notice flags, pulse window and enables
(R133, R137, R138), and its queues, threshold and overrun flag at the control port (R145 to R149).
Times are in ms; the presence timeout is in s, and slot 0 has none. -/
structure SlotRec where
  state : DeskState
  rank : Nat
  perms : Perms
  timeout : Nat
  timer : Option Nat
  marks : Table Bool 64
  flags : StickyFlags
  pulse : Option Nat
  enables : NoticeSet
  requests : List Bundle
  responses : List Response
  threshold : Nat
  overrun : Bool
deriving DecidableEq, Repr

/-- The enables after power-on reset: RESPONSE on, the others off (R137). -/
def resetEnables : NoticeSet := ⟨true, false, false, false, false, false, false, false⟩

/-- The permissions of slot 0 (R106). -/
def allPerms : Perms := ⟨true, true, true, true⟩

/-- The permissions of slots 1..5 after power-on reset (R105). -/
def ownOnlyPerms : Perms := ⟨true, false, false, false⟩

/-- A slot after power-on reset (R105, R118, R142). -/
def SlotRec.reset (d : Slot) : SlotRec where
  state := if d = 0 then .opened else .closed
  rank := if d = 0 then 8 else 1
  perms := if d = 0 then allPerms else ownOnlyPerms
  timeout := if d = 0 then 0 else 5
  timer := none
  marks := .fill 64 false
  flags := .clear
  pulse := none
  enables := resetEnables
  requests := []
  responses := []
  threshold := 2
  overrun := false

/-! ## Executor, system and port -/

/-- An operation being applied: the matched inputs still to be applied, and the per-input results so
far, in ascending input order (R121, R123, R127). -/
structure Progress where
  rest : List Input
  done : List (Input × ResultCode)
deriving DecidableEq, Repr

/-- The bundle in execution (R119): the sending slot, its tag and operations, the position of the
next operation to apply, the results gathered, and how far the operation at that position is
applied. -/
structure Run where
  slot : Slot
  tag : Byte
  ops : List OpRec
  pos : Nat
  results : List OpResult
  progress : Option Progress
deriving DecidableEq, Repr

/-- The bundle executor (R119). It is APPLYING while a bundle is in execution and IDLE otherwise. -/
structure Executor where
  run : Option Run
  pointer : Slot
  resetRequested : Bool
  resetCount : Nat
deriving DecidableEq, Repr

def Executor.reset : Executor := ⟨none, 5, false, 0⟩

/-- The timings (R119, R129): settle and discharge in units of 100 ms, align in samples. The supply
flag and the level of PSAG (R22), and the WCS strap (R130). -/
structure Sys where
  settle : Nat
  discharge : Nat
  align : Nat
  psag : Bool
  supplyFlag : Bool
  rate96 : Bool
deriving DecidableEq, Repr

/-- The last-frame outcomes (R149), coded 0..4 in this order (R152). -/
inductive FrameOutcome
  | none | accepted | full | closed | malformed
deriving DecidableEq, Repr

/-- The port status common to all slots (R149), and the bytes that the last transaction shifted out
on SDO (R143). -/
structure Port where
  lastOutcome : FrameOutcome
  lastSlot : BitVec 3
  error : Bool
  sdo : List Byte
deriving DecidableEq, Repr

def Port.reset : Port := ⟨.none, 0, false, []⟩

/-! ## The whole part -/

structure State where
  inputs : Table Inp 64
  slots : Table SlotRec 6
  executor : Executor
  sys : Sys
  port : Port
  /-- The model's own: the number of the next free value (log entry 4). -/
  freeCount : Nat
  /-- The model's own: the commands that are waiting, first in, first out (log entry 22). -/
  pending : List Instr
deriving DecidableEq, Repr

/-- The part at the end of power-on reset, with the start-up groups issued (R8, R38, R61, R94, R104,
R118, R119, R142, R149), for the levels that PSAG and the WCS strap then have. PSAG asserted counts
as an assertion: the supply flag is set and SUPPLY is raised for the system slot (R22). -/
def State.powerOn (psag rate96 : Bool) (freeCount : Nat) (pending : List Instr) : State where
  inputs := .fill 64 (.reset rate96)
  slots := .ofFn fun d =>
    { SlotRec.reset d with flags := { StickyFlags.clear with supply := psag && d == 0 } }
  executor := .reset
  sys := ⟨8, 15, 24, psag, psag, rate96⟩
  port := .reset
  freeCount := freeCount
  pending := pending

/-- The machine right after reset: PSAG not asserted and the strap at 48 kHz (DESIGN CHOICE, log
entries 1 and 2), an empty queue. -/
def State.reset : State := State.powerOn false false 0 []

end Sys2Proof.Machine
end

