-- ==== Sys2Proof/Machine/Operands.lean ====
section
/-! DEFINITION. The arithmetic of levels, gains, coefficients and feed samples (R62 to R76), input
patterns (R123), and the bytes of the images (R151 to R153). -/

namespace Sys2Proof.Machine

/-- To replace a value below the range by its lowest value and one above it by its highest. -/
def clamp (lo hi x : Int) : Int := max lo (min hi x)

def clampNat (lo hi x : Nat) : Nat := max lo (min hi x)

/-- A number setting that an operation carries, clamped into its range; an absent one is left as it
stands (R96, R108, R129). -/
def carried (lo hi old : Nat) (b : Option Byte) : Nat :=
  match b with
  | some x => clampNat lo hi x.toNat
  | none => old

/-- A number setting that an operation carries had to be clamped. -/
def carriedClamped (lo hi : Nat) (b : Option Byte) : Bool :=
  match b with
  | some x => clampNat lo hi x.toNat != x.toNat
  | none => false

/-! ## Levels -/

/-- The highest gain of a mode; the lowest is 0 (R2). -/
def maxGain : Mode → Nat
  | .off => 0
  | .mic => 60
  | .line => 40
  | .inst => 40

/-- The pad offset F of a mode in dB (R1). -/
def padOffset : Mode → Int
  | .line => -20
  | _ => 0

/-- The net analog level N in qdB (R63). -/
def netLevel (m : Mode) (g : Nat) : Int := 4 * ((g : Int) + padOffset m)

/-- A trim clamped into its range (R23, R62). -/
def clampTrim (x : Int) : Int := clamp (-160) 80 x

/-- A desired level clamped into its range (R23, R62). -/
def clampLevel (x : Int) : Int := clamp (-240) 320 x

/-- A level delta clamped into its range (R27, R62). -/
def clampDelta (x : Int) : Int := clamp (-320) 320 x

/-- A gain clamped into a mode's range (R15, R70). -/
def clampGain (m : Mode) (x : Int) : Nat := (clamp 0 (maxGain m) x).toNat

/-- The tracking computation (R64) for a desired level `l` at net level `n`: the trim and the role. -/
def tracking (n l : Int) : Int × Role :=
  (clampTrim (l - n), if clampTrim (l - n) = l - n then .tracking else .clamped)

/-! ## Feed arithmetic -/

/-- The integer nearest to `num / den`, ties away from zero (R73, R75). -/
def roundDiv (num : Int) (den : Nat) : Int :=
  num.sign * (((2 * num.natAbs + den) / (2 * den) : Nat) : Int)

/-- `c - 1/2 ≤ 2^28 × 10^(t/80)`, both sides doubled and raised to the 80th power. -/
def coefFits (t : Int) (c : Nat) : Bool :=
  (2 * c - 1) ^ 80 * 10 ^ (-t).toNat ≤ 2 ^ 2320 * 10 ^ t.toNat

/-- The greatest `acc + x`, `x` below `2^b`, that fits. -/
def coefSearch (t : Int) : Nat → Nat → Nat
  | 0, acc => acc
  | b + 1, acc => coefSearch t b (if coefFits t (acc + 2 ^ b) then acc + 2 ^ b else acc)

/-- The coefficient table: `c(t)`, the integer nearest to `2^28 × 10^(t/80)`, halves rounded up
(R72). Every entry is below `2^32`. -/
def coefficient (t : Int) : Int := (coefSearch t 32 0 : Nat)

/-- The samples of a crossfade (R73). -/
def fadeSamples (rate96 : Bool) : Nat := if rate96 then 480 else 240

/-- The applied coefficient at the `i`-th of `n` samples of a crossfade from `a` to `c` (R73). -/
def fadeAt (a c : Int) (i n : Nat) : Int := roundDiv (a * n + (c - a) * i) n

/-- The feed sample for a converter sample, an applied coefficient and the two gate counts (R75). -/
def feedSample (s a : Int) (j m n : Nat) : Int := roundDiv (s * a * j * m) (2 ^ 24 * n * n)

/-! ## Patterns -/

/-- The pattern matches an input whose number agrees with the base in every bit where the mask is
clear (R123). -/
def patternMatches (p : Pattern) (k : Input) : Bool :=
  (BitVec.ofNat 6 k.val ^^^ p.base) &&& ~~~p.mask == 0

/-- A mask with all six bits set (R124). -/
def matchesAll (p : Pattern) : Bool := p.mask == BitVec.allOnes 6

/-! ## Bytes of images -/

def byteOf (n : Nat) : Byte := BitVec.ofNat 8 n

/-- A signed 16-bit number, most significant byte first (R151). -/
def signedBytes (x : Int) : List Byte := bytesOf16 (BitVec.ofInt 16 x)

def natBytes (n : Nat) : List Byte := bytesOf16 (BitVec.ofNat 16 n)

/-- A byte of an image: its value in the bits of `mask`. The spec states no value for the others. -/
structure ImageByte where
  mask : Byte
  value : Byte
deriving DecidableEq, Repr

/-- Every bit is stated. -/
def stated (b : Byte) : ImageByte := ⟨0xFF, b⟩

def statedAll (bs : List Byte) : List ImageByte := bs.map stated

/-- The bits outside `mask` are not stated. -/
def partly (mask value : Byte) : ImageByte := ⟨mask, value⟩

/-- No bit is stated. -/
def unstated : ImageByte := ⟨0, 0⟩

/-- The bytes of an image: bits the spec does not state are free values, named from `n` on (log
entry 5). -/
def fillImage : Nat → List ImageByte → List Byte
  | _, [] => []
  | n, b :: bs =>
    (if b.mask = 0xFF then b.value
      else (b.value &&& b.mask) ||| (Config.freeByte n &&& ~~~b.mask)) :: fillImage (n + 1) bs

/-- A set of inputs as 8 bytes: byte `i`, bit `j` stands for input `8 i + j` (R153). -/
def setBytes (bs : List Bool) : List Byte :=
  (List.range 8).map fun i => byteOfBits ((bs.drop (8 * i)).take 8)

/-- Fields of a byte placed at their lowest bits. -/
def fields (fs : List (Nat × Nat)) : Byte := byteOf (fs.foldr (fun f n => f.1 * 2 ^ f.2 + n) 0)

end Sys2Proof.Machine
end

