-- ==== Sys2Proof/Machine/Flags.lean ====
section
/-! DEFINITION. Notice flags, the attention contributions and the ATTN line (R137, R141), the port
flags, and the fields whose changes set marks (R134, R135). -/

namespace Sys2Proof.Machine

/-! ## Notices -/

/-- OPEN or ABSENT: the slots that are told of changes (R111, R134). -/
def SlotRec.live (r : SlotRec) : Bool := r.state != .closed

/-- An observer: a slot holding OBSERVER, not CLOSED (R111). -/
def SlotRec.observes (r : SlotRec) : Bool := r.live && r.perms.observer

/-- The number of marks of the slot (R133). -/
def SlotRec.markCount (r : SlotRec) : Nat := r.marks.data.countP id

/-- A sticky flag set (R137). -/
def StickyFlags.raise (f : StickyFlags) : Sticky → StickyFlags
  | .ownership => { f with ownership := true }
  | .glideDone => { f with glideDone := true }
  | .frontend => { f with frontend := true }
  | .overload => { f with overload := true }
  | .overrun => { f with overrun := true }
  | .supply => { f with supply := true }

/-- The sticky flags a notice set names cleared; a named level notice is not changed (R139). -/
def StickyFlags.clearNamed (f : StickyFlags) (n : NoticeSet) : StickyFlags where
  ownership := f.ownership && !n.ownership
  glideDone := f.glideDone && !n.glideDone
  frontend := f.frontend && !n.frontend
  overload := f.overload && !n.overload
  overrun := f.overrun && !n.overrun
  supply := f.supply && !n.supply

/-- The eight notice flags of a slot: the level notices as their conditions stand, and the sticky
ones (R137). -/
def SlotRec.noticeFlags (r : SlotRec) : NoticeSet where
  response := !r.responses.isEmpty
  marks := r.markCount != 0
  ownership := r.flags.ownership
  glideDone := r.flags.glideDone
  frontend := r.flags.frontend
  overload := r.flags.overload
  overrun := r.flags.overrun
  supply := r.flags.supply

/-- Enables turned on and off (R139). -/
def turnEnables (e on off : NoticeSet) : NoticeSet where
  response := (e.response || on.response) && !off.response
  marks := (e.marks || on.marks) && !off.marks
  ownership := (e.ownership || on.ownership) && !off.ownership
  glideDone := (e.glideDone || on.glideDone) && !off.glideDone
  frontend := (e.frontend || on.frontend) && !off.frontend
  overload := (e.overload || on.overload) && !off.overload
  overrun := (e.overrun || on.overrun) && !off.overrun
  supply := (e.supply || on.supply) && !off.supply

/-- The slot alone would hold ATTN low (R141): an enabled level notice is true, an enabled sticky
notice other than GLIDE_DONE is set, or GLIDE_DONE is enabled and its pulse window open. -/
def SlotRec.contributes (r : SlotRec) : Bool :=
  r.live && NoticeSet.meets r.enables { r.noticeFlags with glideDone := r.pulse.isSome }

/-- A sticky notice raised for a slot: not for a CLOSED one (R137). Each raising of GLIDE_DONE opens
its pulse window, or restarts it, at 1 ms (R138). -/
def SlotRec.raise (n : Sticky) (r : SlotRec) : SlotRec :=
  if r.live then
    { r with flags := r.flags.raise n, pulse := if n = .glideDone then some 1 else r.pulse }
  else r

/-- A mark set for a slot: not for a CLOSED one (R111, R133). -/
def SlotRec.mark (k : Input) (r : SlotRec) : SlotRec :=
  if r.live then { r with marks := r.marks.set k true } else r

def SlotRec.clearMark (k : Input) (r : SlotRec) : SlotRec := { r with marks := r.marks.set k false }

/-! ## Port flags -/

/-- ROOM: the request queue holds no more bundles than the threshold (R148). -/
def SlotRec.room (r : SlotRec) : Bool := r.requests.length ≤ r.threshold

/-- The part is driving ATTN low (R141). -/
def State.attnLow (s : State) : Bool := s.slots.data.any SlotRec.contributes

/-- The status summary byte (R143): bit 7 the last-frame error flag, bit 6 the executor APPLYING, bits
5..0 the attention contributions of slots 5..0. -/
def State.summaryByte (s : State) : Byte :=
  byteOfBits (s.slots.data.map SlotRec.contributes ++ [s.executor.run.isSome, s.port.error])

/-! ## What marks -/

def Inp.tap (x : Inp) (d : Slot) : Option Tap := x.taps.get d

def Inp.net (x : Inp) : Int := netLevel x.mode x.gain

def Inp.holds (x : Inp) (d : Slot) : Bool := (x.tap d).isSome

/-- The owner's effective level (R23, R132). -/
def Inp.ownerLevel (x : Inp) : Option Int :=
  match x.owner with
  | some d => (x.tap d).map fun t => x.net + t.trim
  | none => none

/-- The place in the claim queue of a slot, 1 for the head (R23, R30). -/
def Inp.claimPosition (x : Inp) (d : Slot) : Option Nat :=
  if d ∈ x.queue then some (x.queue.idxOf d + 1) else none

/-- The fields of the input record whose changes mark (R134). -/
structure RecordView where
  mode : Mode
  gain : Nat
  phantom : Bool
  lock : Bool
  isProtected : Bool
  fault : Bool
  recheck : Bool
  busy : Bool
  request : Option Request
  owner : Option Slot
  queue : List Slot
  holders : List Bool
  ownerLevel : Option Int
  glide : Option (Nat × Nat × GlideSource × GlideState × Option Retarget)
  guard : Policy × Nat × Nat × Nat × Nat × GuardOutcome
deriving DecidableEq, Repr

def Inp.view (x : Inp) : RecordView where
  mode := x.mode
  gain := x.gain
  phantom := x.phantom
  lock := x.lock
  isProtected := x.isProtected
  fault := x.fault
  recheck := x.recheck
  busy := x.seq != .idle
  request := x.request
  owner := x.owner
  queue := x.queue
  holders := x.taps.data.map Option.isSome
  ownerLevel := x.ownerLevel
  glide := x.glide.map fun g => (g.target, g.rate, g.source, g.state, g.staged)
  guard := (x.guard.policy, x.guard.threshold, x.guard.window, x.guard.backStep, x.guard.total,
    x.guard.last)

/-- The fields of a tap record, whose changes mark (R135). -/
structure TapView where
  role : Role
  desired : Option Int
  trim : Int
  mute : Bool
  position : Option Nat
deriving DecidableEq, Repr

def Inp.tapView (x : Inp) (d : Slot) : Option TapView :=
  (x.tap d).map fun t => ⟨t.role, t.desired, t.trim, t.mute, x.claimPosition d⟩

/-- An event that took the input from `old` to `new` marks it for slot `d` with record `r`: a change of
the input record marks for tap holders and observers (R134), a change of a tap record for the slot
that holds the tap (R135). CLOSED slots gain no mark. -/
def changeMarks (old new : Inp) (d : Slot) (r : SlotRec) : Bool :=
  r.live && ((old.view != new.view && (new.holds d || r.observes)) ||
    (new.holds d && old.tapView d != new.tapView d))

end Sys2Proof.Machine
end

