-- ==== Sys2Proof/Machine/Ops.lean ====
section
/-! DEFINITION. The operations the commands share. What happens at one input is a function on `Ev`:
the input's own record, the notices and marks the event raises by name, and the per-input result.
It reads the rest of the part through `Env` and cannot change it. -/

namespace Sys2Proof.Machine

/-! ## Access -/

def State.inp (s : State) (k : Input) : Inp := s.inputs.get k

def State.setInp (s : State) (k : Input) (x : Inp) : State := { s with inputs := s.inputs.set k x }

def State.slot (s : State) (d : Slot) : SlotRec := s.slots.get d

def State.setSlot (s : State) (d : Slot) (r : SlotRec) : State :=
  { s with slots := s.slots.set d r }

def State.modSlot (s : State) (d : Slot) (f : SlotRec → SlotRec) : State :=
  s.setSlot d (f (s.slot d))

/-- What an event at one input reads of the rest of the part. -/
structure Env where
  sys : Sys
  slots : Table SlotRec 6

def State.env (s : State) : Env := ⟨s.sys, s.slots⟩

/-- What an event raises by name: a sticky notice for a slot, or the mark of a slot on the input. -/
inductive Signal
  | raise (n : Sticky) (d : Slot)
  | mark (d : Slot)
deriving DecidableEq, Repr

/-- An event at one input as it goes on. -/
structure Ev where
  inp : Inp
  out : List Signal
  code : ResultCode
deriving DecidableEq, Repr

/-- The input changed by `f`. -/
def Ev.mod (f : Inp → Inp) (e : Ev) : Ev := { e with inp := f e.inp }

/-- The per-input result (R127). -/
def Ev.answer (c : ResultCode) (e : Ev) : Ev := { e with code := c }

def Ev.emit (xs : List Signal) (e : Ev) : Ev := { e with out := e.out ++ xs }

def Env.observers (v : Env) : List Slot :=
  (List.finRange 6).filter fun d => (v.slots.get d).observes

def Env.rank (v : Env) (d : Slot) : Nat := (v.slots.get d).rank

/-- A notice raised for the owner, if the input has one. -/
def Ev.raiseOwner (n : Sticky) (e : Ev) : Ev := e.emit (e.inp.owner.toList.map (.raise n))

def Ev.raiseObservers (v : Env) (n : Sticky) (e : Ev) : Ev := e.emit (v.observers.map (.raise n))

/-- FRONTEND for the requesting desk of a change, and that desk's mark (R14, R18, R20). -/
def Ev.tellDesk (d : Slot) (e : Ev) : Ev := e.emit [.raise .frontend d, .mark d]

/-- A running timer is due: no time is left. Its expiry is there from then on and not before (log entry 8),
and nothing forces it (log entry 10). -/
def isDue (timer : Option Nat) : Bool := timer == some 0

/-! ## Events at the state -/

def Signal.at (k : Input) (s : State) : Signal → State
  | .raise n d => s.modSlot d (SlotRec.raise n)
  | .mark d => s.modSlot d (SlotRec.mark k)

/-- The marks of an event that took input `k` from `old` to what it now is (R134, R135). -/
def State.markChanges (s : State) (k : Input) (old : Inp) : State :=
  { s with slots := .ofFn fun d =>
      if changeMarks old (s.inp k) d (s.slot d) then (s.slot d).mark k else s.slot d }

/-- An event `f` at input `k` as it stands. -/
def State.evAt (s : State) (k : Input) (f : Env → Ev → Ev) : Ev := f s.env ⟨s.inp k, [], .done⟩

/-- The event's effects taken over into the state: the input's record, the notices and marks raised by
name, and the marks of the change. -/
def State.commit (s : State) (k : Input) (e : Ev) : State :=
  (e.out.foldl (Signal.at k) (s.setInp k e.inp)).markChanges k (s.inp k)

/-- The event `f` carried out at input `k`. -/
def State.atInput (s : State) (k : Input) (f : Env → Ev → Ev) : State := s.commit k (s.evAt k f)

/-- The event `f` carried out at every input that meets `p`, in ascending input order. -/
def State.atInputs (s : State) (p : Inp → Bool) (f : Env → Ev → Ev) : State :=
  (List.finRange 64).foldl (fun t k => if p (t.inp k) then t.atInput k f else t) s

/-! ## Taps -/

def Inp.setTap (x : Inp) (d : Slot) (t : Option Tap) : Inp := { x with taps := x.taps.set d t }

/-- A released change becomes the trim in force, and the crossfade toward it starts from the applied
coefficient as it stands. Every change made before it is discarded (R36, R37, R73). -/
def Tap.release (trim : Int) (later : List Aligned) (t : Tap) : Tap :=
  { t with inForce := trim, fade := some ⟨t.coef, 0⟩, waiting := later }

/-- The tracking computation for a non-owner tap at net level `n` (R64); the owner's trim is not
tracked (R67). -/
def Tap.track (n : Int) (t : Tap) : Tap :=
  match t.role, t.desired with
  | .owner, _ => t
  | _, some l => { t with trim := (tracking n l).1, role := (tracking n l).2 }
  | _, none => t

/-- A trim that changed from `old` is handed to the feed mixer as an immediate change (R36). -/
def Tap.handNow (old : Int) (t : Tap) : Tap := if t.trim = old then t else t.release t.trim []

/-- A trim that changed from `old` is handed to the feed mixer as an aligned change, with the delay in
force (R36). -/
def Tap.handAligned (align : Nat) (old : Int) (t : Tap) : Tap :=
  if t.trim = old then t else { t with waiting := t.waiting ++ [⟨t.trim, align⟩] }

/-- The tracking computation for every non-owner tap at an acknowledgement that changed N (R29). -/
def Inp.trackAll (align : Nat) (x : Inp) : Inp :=
  { x with taps := x.taps.map (Option.map fun t => (t.track x.net).handAligned align t.trim) }

/-- The trim of the OWNER tap raised by 4 at an acknowledged guard step, clamped at +80 (R68). -/
def Tap.raiseTrim (align : Nat) (t : Tap) : Tap :=
  if t.role = .owner then
    Tap.handAligned align t.trim { t with trim := clampTrim (t.trim + 4) }
  else t

def Inp.raiseOwnerTrim (align : Nat) (x : Inp) : Inp :=
  { x with taps := x.taps.map (Option.map (Tap.raiseTrim align)) }

/-! ## Glides: ending, withdrawing -/

/-- The waiting step, if any, leaves the command path (R5). -/
def Inp.withdrawStep (x : Inp) : Inp := { x with waiting := x.waiting.filter (· != .step) }

/-- The glide record is dropped with its staged retarget and step timer, and a ready step is withdrawn;
an outstanding step is left to complete (R90, R93). -/
def Inp.dropGlide (x : Inp) : Inp := { x.withdrawStep with glide := none }

/-- The end of a glide with GLIDE_DONE: for the owner, and for a guard glide also for the observers
(R85, R91). -/
def Ev.endGlide (v : Env) (e : Ev) : Ev :=
  match e.inp.glide with
  | none => e
  | some g =>
    let e := (e.mod Inp.dropGlide).raiseOwner .glideDone
    match g.source with
    | .owner => e
    | .guard => e.raiseObservers v .glideDone

/-! ## The command path -/

/-- A write is issued: it becomes the outstanding one and its timeout begins to run (R5, R7). -/
def Inp.issue (w : Write) (i : Issuer) (x : Inp) : Inp :=
  { x with outstanding := some ⟨w, i, ackTimeout⟩ }

/-- The step's value at its issue: 1 dB toward the target (R83). -/
def stepGain (gain target : Nat) : Nat := if gain < target then gain + 1 else gain - 1

/-- The switching write of the in-flight change: a mode write with G clamped into the new mode's range
as it stands, or a phantom write (R15). -/
def Inp.switchingWrite (x : Inp) : Option Write :=
  x.inFlight.map fun c =>
    match c.value with
    | .mode m => .mode m (clampGain m x.gain)
    | .phantom on => .phantom on

/-- The in-flight change of a HALTED sequencer, which a recheck carries out (R20). -/
def Inp.haltedChange (x : Inp) : Option Change := if x.seq = .halted then x.inFlight else none

/-- The first write of a recheck: the recorded mode and G, or the mode change of a HALTED sequencer
(R20). -/
def Inp.recheckMode (x : Inp) : Write :=
  match x.haltedChange with
  | some ⟨.mode m, _, _⟩ => .mode m (clampGain m x.gain)
  | _ => .mode x.mode x.gain

/-- The second write of a recheck is issued: the recorded phantom state, or the phantom change of a
HALTED sequencer that is not abandoned. Phantom ON under PSAG abandons that change and tells the
requesting desk (R20, R22). -/
def Ev.issueRecheckPhantom (v : Env) (e : Ev) : Ev :=
  match e.inp.haltedChange with
  | some ⟨.phantom on, d, false⟩ =>
    if on && v.sys.psag then
      (e.mod fun x => { x.issue (.phantom x.phantom) (.recheck 1) with
        inFlight := some ⟨.phantom on, d, true⟩ }).tellDesk d
    else e.mod (Inp.issue (.phantom on) (.recheck 1))
  | _ => e.mod (Inp.issue (.phantom e.inp.phantom) (.recheck 1))

/-- The path issues the first write of the oldest waiting group. A step whose issue is reached while
the target equals G is withdrawn and its glide ends (R5, R83). -/
def Ev.issueOldest (v : Env) : List Group → Ev → Ev
  | [], e => e.mod fun x => { x with waiting := [] }
  | .step :: rest, e =>
    match e.inp.glide with
    | some g =>
      if g.target = e.inp.gain then
        Ev.issueOldest v rest (Ev.endGlide v e)
      else
        e.mod fun x => { x.issue (.gain (stepGain x.gain g.target)) (.step g.source) with
          waiting := rest, glide := some { g with step := .outstanding } }
    | none => Ev.issueOldest v rest e
  | .switching :: rest, e =>
    match e.inp.switchingWrite with
    | some w => e.mod fun x => { x.issue w .switching with waiting := rest }
    | none => Ev.issueOldest v rest e
  | .recheck :: rest, e =>
    e.mod fun x => { x.issue x.recheckMode (.recheck 0) with waiting := rest }
  | .startUp :: rest, e =>
    e.mod fun x => { x.issue (.mode .off 0) (.startUp 0) with waiting := rest }

/-- The path moves on when no write is outstanding (R5). -/
def Ev.pump (v : Env) (e : Ev) : Ev :=
  if e.inp.outstanding.isSome then e else Ev.issueOldest v e.inp.waiting e

/-- A ready group joins the waiting list and is issued at once if the path is free (R5). -/
def Ev.join (v : Env) (g : Group) (e : Ev) : Ev :=
  (e.mod fun x => { x with waiting := x.waiting ++ [g] }).pump v

/-- The glide's next step is made ready, only if the sequencer is IDLE (R83). -/
def Ev.readyStep (v : Env) (e : Ev) : Ev :=
  match e.inp.glide with
  | some g =>
    if e.inp.seq = .idle then
      (e.mod fun x => { x with glide := some { g with step := .ready } }).join v .step
    else e
  | none => e

/-! ## Ownership -/

/-- The outgoing owner's tap: its level captured as N + T, role TRACKING, the trim unchanged (R49
step 1, R69). -/
def Tap.capture (n : Int) (t : Tap) : Tap := { t with role := .tracking, desired := some (n + t.trim) }

/-- The incoming owner's tap: role OWNER, no desired level, the trim unchanged (R49 step 3). -/
def Tap.own (t : Tap) : Tap := { t with role := .owner, desired := none }

def Inp.modTap (d : Slot) (f : Tap → Tap) (x : Inp) : Inp := x.setTap d ((x.tap d).map f)

/-- The owner's tap captured, if the input has an owner. -/
def Inp.captureOwner (x : Inp) : Inp :=
  match x.owner with
  | some d => x.modTap d (Tap.capture x.net)
  | none => x

/-- The owner field takes the incoming owner, whose tap takes role OWNER (R49 steps 2 and 3). -/
def Inp.giveTo (incoming : Option Slot) (x : Inp) : Inp :=
  match incoming with
  | some d => Inp.modTap d Tap.own { x with owner := some d }
  | none => { x with owner := none }

/-- At a hand-over an owner glide is ended without GLIDE_DONE; a guard glide continues without its
staged retarget (R50, R51, R90). -/
def Inp.handOverGlide (x : Inp) : Inp :=
  match x.glide with
  | some g =>
    match g.source with
    | .owner => x.dropGlide
    | .guard => { x with glide := some { g with staged := none } }
  | none => x

/-- A hand-over to `incoming`, or to none (R49, R53). -/
def Ev.handOver (incoming : Option Slot) (e : Ev) : Ev :=
  (e.mod fun x => ((x.captureOwner).giveTo incoming).handOverGlide).emit
    ((e.inp.owner.toList ++ incoming.toList).map (.raise .ownership))

/-- The owner leaves: the head of the queue becomes owner, or the input is orphaned (R47). -/
def Ev.handOn (e : Ev) : Ev :=
  match e.inp.queue with
  | d :: rest => (e.mod fun x => { x with queue := rest }).handOver (some d)
  | [] => e.handOver none

/-- A slot leaves the claim queue; the entries behind it move up (R42). -/
def Inp.leaveQueue (d : Slot) (x : Inp) : Inp := { x with queue := x.queue.filter (· != d) }

/-- An entry placed immediately behind the last one that meets `p`, or at the head (R42). -/
def insertBehind (p : Slot → Bool) (d : Slot) : List Slot → List Slot
  | [] => [d]
  | c :: rest => if (c :: rest).any p then c :: insertBehind p d rest else d :: c :: rest

/-- A slot leaves ownership and queue of the input, as by RELEASE (R57, R59). -/
def Ev.leave (d : Slot) (e : Ev) : Ev :=
  if e.inp.owner = some d then e.handOn else e.mod (Inp.leaveQueue d)

/-- A tap is retired: ownership or queue place released first, then the record removed (R26, R59). -/
def Ev.retire (d : Slot) (e : Ev) : Ev := (e.leave d).mod fun x => x.setTap d none

/-! ## The sequencer -/

/-- The settle time of a change in ms (R16). -/
def settleTime (y : Sys) : FrontValue → Nat
  | .mode _ => 50
  | .phantom true => 100 * y.settle
  | .phantom false => 100 * y.discharge

/-- An accepted change starts a sequence: the sequencer leaves IDLE for MUTING, and a ready step is
withdrawn; the step timer runs on (R14, R87). -/
def Inp.startSequence (value : FrontValue) (d : Slot) (x : Inp) : Inp :=
  { x.withdrawStep with
    seq := .muting
    inFlight := some ⟨value, d, false⟩
    glide := x.glide.map fun g => if g.step = .ready then { g with step := .absent } else g }

/-- The sequencer enters SETTLING with the settle time of its in-flight change (R16). -/
def Inp.startSettling (y : Sys) (x : Inp) : Inp :=
  match x.inFlight with
  | some c => { x with seq := .settling, settleLeft := some (settleTime y c.value) }
  | none => x

/-- The sequencer enters UNMUTING, and the sequence gate rises from 0 (R16, R35, R74). -/
def Inp.startUnmuting (x : Inp) : Inp :=
  { x with seq := .unmuting, settleLeft := none, seqGate := 0 }

/-- The judgement of a mode request at an input that is not in FAULT and whose sequencer is IDLE (R12
steps 3 and 4): `none` where the request would start a sequence. -/
def Inp.judgeMode (m : Mode) (x : Inp) : Option ResultCode :=
  if m = x.mode then some .done
  else if x.phantom && (x.mode == .mic || x.mode == .line) && (m == .inst || m == .off) then
    some .phantomOn
  else none

/-- The judgement of a phantom request (R13 steps 3 to 5): `none` where it would start a sequence. -/
def Inp.judgePhantom (y : Sys) (on : Bool) (x : Inp) : Option ResultCode :=
  if on = x.phantom then some .done
  else if on = false then none
  else if x.mode != .mic && x.mode != .line then some .modeConflict
  else if x.lock then some .locked
  else if y.psag then some .supply
  else none

def Inp.judge (y : Sys) (value : FrontValue) (x : Inp) : Option ResultCode :=
  match value with
  | .mode m => x.judgeMode m
  | .phantom on => x.judgePhantom y on

/-- A front-end request from the owner (R12, R13, R17): refused in FAULT, stored or refused BUSY at a
busy sequencer, and otherwise judged. -/
def Ev.request (v : Env) (d : Slot) (value : FrontValue) (e : Ev) : Ev :=
  if e.inp.fault then e.answer .fault
  else if e.inp.seq ≠ .idle then
    if e.inp.request.isSome then e.answer .busy
    else (e.mod fun x => { x with request := some ⟨value, d⟩ }).answer .pending
  else
    match e.inp.judge v.sys value with
    | some c => e.answer c
    | none => (e.mod (Inp.startSequence value d)).answer .done

/-- The input enters or stays in FAULT: its glide ends, a MUTING or SWITCHING sequencer goes to HALTED
and a waiting switching write is discarded, and FRONTEND is raised for the owner and the observers
(R10, R91). -/
def Ev.enterFault (v : Env) (e : Ev) : Ev :=
  let e := e.endGlide v
  let e := e.mod fun x =>
    { x with
      fault := true
      seq := if x.seq = .muting ∨ x.seq = .switching then .halted else x.seq
      waiting := if x.seq = .muting ∨ x.seq = .switching then x.waiting.filter (· != .switching)
        else x.waiting }
  (e.raiseOwner .frontend).raiseObservers v .frontend

/-! ## Control reset -/

/-- A control reset at one input: the pending request and the glide are dropped, every tap leaves
ownership and queue with the capture of R60, and the guard's counting state is cleared (R9, R39, R60,
R93, R104). -/
def Inp.controlReset (x : Inp) : Inp :=
  let y := x.captureOwner.dropGlide
  { y with
    request := none
    owner := none
    queue := []
    guard := { y.guard with count := 0, timer := none } }

/-- A control reset at one slot, which held taps on the inputs `tapped` (R117, R142). The system slot
keeps its queues. Flags are cleared, then marks are set: on every tapped input, or on all for an
observer. -/
def SlotRec.controlReset (d : Slot) (tapped : Input → Bool) (r : SlotRec) : SlotRec :=
  let r := { r with flags := .clear, pulse := none }
  let r := if r.live then
      { r with marks := .ofFn fun k => r.marks.get k || tapped k || r.perms.observer } else r
  if d = 0 then r
  else
    match r.state with
    | .closed => r
    | _ => { r with state := .absent, timer := none, requests := [], responses := [] }

/-- A control reset carried out as one event, with the clearing of the requested flag and the count
among its parts (R116, R117, R122). -/
def State.controlReset (s : State) : State :=
  { s with
    inputs := s.inputs.map Inp.controlReset
    slots := .ofFn fun d => (s.slot d).controlReset d (fun k => (s.inp k).holds d)
    executor := { s.executor with
      resetRequested := false
      resetCount := min 255 (s.executor.resetCount + 1) } }

end Sys2Proof.Machine
end

