-- ==== Sys2Proof/Machine/Apply.lean ====
section
/-! DEFINITION. How the bundle executor applies the next operation of the bundle in execution: the
checks before it, its applications one input at a time, and its result (R121 to R128). -/

namespace Sys2Proof.Machine

/-- The per-input results that are refusals (R127). -/
def ResultCode.refusal : ResultCode → Bool
  | .done | .clamped | .queued | .pending => false
  | _ => true

/-- The result of an operation refused before any application (R126). -/
def OpResult.whole (c : ResultCode) : OpResult := ⟨c, 0, 0, 0, none, []⟩

/-- The result of an operation that carries no pattern: one application (R126). -/
def OpResult.single (c : ResultCode) (image : List Byte) : OpResult :=
  if c.refusal then ⟨c, 1, 0, 1, none, image⟩ else ⟨c, 1, 1, 0, none, image⟩

/-- The code of an operation none of whose applications was refused (R128 steps 3 to 6). -/
def appliedCode (cs : List ResultCode) : ResultCode :=
  if cs.contains .clamped then .clamped
  else if cs.contains .pending then .pending
  else if cs.contains .queued then .queued
  else .done

/-- The result of an operation applied to inputs, from its per-input results in ascending input order
(R126, R128). -/
def OpResult.summary (done : List (Input × ResultCode)) (image : List Byte) : OpResult :=
  let refused := done.filter fun x => x.2.refusal
  let code := match refused with
    | x :: _ => x.2
    | [] => appliedCode (done.map Prod.snd)
  ⟨code, done.length, done.length - refused.length, refused.length, refused.head?.map Prod.fst, image⟩

def State.setRun (s : State) (r : Option Run) : State :=
  { s with executor := { s.executor with run := r } }

/-- The result of the operation being applied is gathered, and the next operation follows (R121). -/
def State.gather (s : State) (r : Run) (x : OpResult) : State :=
  s.setRun (some { r with pos := r.pos + 1, results := r.results ++ [x], progress := none })

/-- The inputs a pattern matches, ascending; protected ones are left out of a mask that is not 0
(R123). -/
def State.expand (s : State) (p : Pattern) : List Input :=
  (List.finRange 64).filter fun k =>
    patternMatches p k && (p.mask == 0 || !(s.inp k).isProtected)

/-- The checks at an operation that carries a pattern, in order: the code that refuses the whole
operation, or the matched inputs (R124). `exact` holds for READ INPUT and READ TAP. -/
def State.checkPattern (s : State) (d : Slot) (p : Pattern) (exact : Bool) :
    Except ResultCode (List Input) :=
  if exact && p.mask != 0 then .error .badPattern
  else if matchesAll p && !(s.slot d).perms.broadcast then .error .denied
  else if (s.expand p).isEmpty then .error .noMatch
  else .ok (s.expand p)

/-- One application of an operation to one input. -/
structure Applied where
  state : State
  code : ResultCode
  image : List Byte

/-- The operation is applied to input `k`, with `rest` to follow and `done` the results so far; after
the last input its result is gathered (R121, R126). -/
def State.applyAt (s : State) (r : Run) (one : Input → State → Applied) (k : Input)
    (rest : List Input) (done : List (Input × ResultCode)) : State :=
  let a := one k s
  let done := done ++ [(k, a.code)]
  match rest with
  | [] => a.state.gather r (OpResult.summary done a.image)
  | _ => a.state.setRun (some { r with progress := some ⟨rest, done⟩ })

/-- The next application of an operation that carries a pattern. The first one makes the checks and
expands the pattern (R123, R124); each of them applies the operation to one matched input (R121). -/
def State.onPattern (s : State) (r : Run) (p : Pattern) (exact : Bool)
    (one : Input → State → Applied) : State :=
  match r.progress with
  | some ⟨k :: rest, done⟩ => s.applyAt r one k rest done
  | some ⟨[], done⟩ => s.gather r (OpResult.summary done [])
  | none =>
    match s.checkPattern r.slot p exact with
    | .error c => s.gather r (OpResult.whole c)
    | .ok [] => s.gather r (OpResult.whole .noMatch)
    | .ok (k :: rest) => s.applyAt r one k rest []

/-- An operation that carries no pattern is taken whole (R121). -/
def State.gatherSingle (s : State) (r : Run) (c : ResultCode) (image : List Byte) : State :=
  s.gather r (OpResult.single c image)

/-- The bundle in execution and its next operation record, if the executor is APPLYING and the bundle
has one left. -/
def State.nextRecord (s : State) : Option (Run × OpRec) :=
  match s.executor.run with
  | some r => r.ops[r.pos]?.map fun c => (r, c)
  | none => none

/-- The executor takes the next application of the bundle's next operation, whose kind is `kind`: BAD_OP
where the record carries no operation, DENIED for a system operation from another slot (R125), and
otherwise `body`. Where the next operation is not of that kind, the executor has no such step and
nothing happens (log entry 8). -/
def State.applyKind (s : State) (kind : Byte) (body : Run → Op → State) : State :=
  match s.nextRecord with
  | none => s
  | some (r, c) =>
    if c.kind = kind then
      match decodeOp c with
      | none => s.gather r (OpResult.whole .badOp)
      | some o => if o.systemOnly && r.slot != 0 then s.gather r (OpResult.whole .denied) else body r o
    else s

/-- An application that is an event at the input. -/
def applyEvent (f : Env → Ev → Ev) (k : Input) (s : State) : Applied :=
  let e := s.evAt k f
  ⟨s.commit k e, e.code, []⟩

/-- An image is taken: the free bits it holds are named, and the counter moves on (log entry 5). -/
def State.takeImage (s : State) (bs : List ImageByte) : State × List Byte :=
  ({ s with freeCount := s.freeCount + bs.length }, fillImage s.freeCount bs)

end Sys2Proof.Machine
end

