-- ==== Sys2Proof/Machine/Gain.lean ====
section
/-! DEFINITION. SET GAIN and STOP GLIDE (R78 to R80, R86), and the glide engine's part of a step's
acknowledgement, of a mode change, of the return to IDLE and of a bundle's end (R81 to R89). -/

namespace Sys2Proof.Machine

/-! ## SET GAIN -/

/-- The present target of a glide: the staged one if a retarget is staged (R77). -/
def Glide.present (g : Glide) : Nat :=
  match g.staged with
  | some q => q.target
  | none => g.target

/-- The base of a relative SET GAIN (R70). -/
def Inp.gainBase (x : Inp) : Nat :=
  match x.glide with
  | some g => g.present
  | none => x.gain

/-- The target before it is clamped into the mode's range, and whether the delta was clamped (R70). -/
def wantedGain (x : Inp) (relative : Bool) (v : Int) : Int × Bool :=
  if relative then ((x.gainBase : Int) + clamp (-60) 60 v, clamp (-60) 60 v != v) else (v, false)

/-- The rate of a SET GAIN: clamped into 0..100, 20 where none is given (R78). -/
def gainRate (rate : Option Byte) : Nat :=
  match rate with
  | some b => clampNat 0 100 b.toNat
  | none => 20

def rateClamped (rate : Option Byte) : Bool :=
  match rate with
  | some b => 100 < b.toNat
  | none => false

/-- What the glide engine does with the target and rate of a SET GAIN (R79, R80). -/
def Inp.takeTarget (target rate : Nat) (x : Inp) : Inp :=
  match x.glide with
  | none =>
    if target = x.gain then x
    else { x with glide := some ⟨target, rate, .owner, .waiting, .absent, none, none⟩ }
  | some g =>
    match g.state with
    | .waiting =>
      if target = x.gain then x.dropGlide
      else { x with glide := some { g with target := target, rate := rate } }
    | .stepping => { x with glide := some { g with staged := some ⟨target, rate⟩ } }

/-- SET GAIN at one input: the owner check (R55), the fault check (R11), the target and rate (R78), the
back-off total cleared (R103), and the glide (R79, R80). -/
def setGainAt (d : Slot) (relative : Bool) (v : Byte) (rate : Option Byte) (_ : Env) (e : Ev) : Ev :=
  if e.inp.owner ≠ some d then e.answer .notOwner
  else if e.inp.fault then e.answer .fault
  else
    let want := wantedGain e.inp relative v.toInt
    let target := clampGain e.inp.mode want.1
    (e.mod fun x =>
      let x := x.takeTarget target (gainRate rate)
      { x with guard := { x.guard with total := 0 } }).answer
      (if want.2 || (target : Int) != want.1 || rateClamped rate then .clamped else .done)

/-- SET_GAIN (R78). -/
def execSetGain (s : State) : Host.Outcome State Fault Refusal :=
  .next (s.applyKind 0x08 fun r o =>
    match o with
    | .setGain p relative v rate =>
      s.onPattern r p false (applyEvent (setGainAt r.slot relative v rate))
    | _ => s)

/-! ## STOP GLIDE -/

/-- The gain the outstanding write carries; G where no gain write is outstanding. -/
def Inp.stepCarries (x : Inp) : Nat :=
  match x.outstanding with
  | some ⟨.gain g, _, _⟩ => g
  | _ => x.gain

/-- STOP GLIDE from the owner (R86): with a step outstanding the glide ends at its acknowledgement, and
at once otherwise; the source becomes OWNER. -/
def Ev.stopGlide (v : Env) (e : Ev) : Ev :=
  match e.inp.glide with
  | none => e
  | some g =>
    if g.state = .stepping ∧ g.step = .outstanding then
      e.mod fun x => { x with
        glide := some { g with target := x.stepCarries, source := .owner, staged := none } }
    else (e.mod fun x => { x with glide := some { g with source := .owner } }).endGlide v

/-- STOP GLIDE at one input: the owner check alone (R55, R86). -/
def stopGlideAt (d : Slot) (v : Env) (e : Ev) : Ev :=
  if e.inp.owner ≠ some d then e.answer .notOwner else (e.stopGlide v).answer .done

/-- STOP_GLIDE (R86). -/
def execStopGlide (s : State) : Host.Outcome State Fault Refusal :=
  .next (s.applyKind 0x09 fun r o =>
    match o with
    | .stopGlide p => s.onPattern r p false (applyEvent (stopGlideAt r.slot))
    | _ => s)

/-! ## The glide engine at other events -/

/-- The glide engine at the acknowledgement of a step (R84): the glide ends at its target, waits for the
sequencer, makes the next step ready, or starts its step timer. A step whose glide was dropped or
replaced ends here. -/
def Ev.stepAcked (v : Env) (e : Ev) : Ev :=
  match e.inp.glide with
  | none => e
  | some g =>
    if g.step = .outstanding then
      let e := e.mod fun x => { x with glide := some { g with step := .absent } }
      if e.inp.gain = g.target then e.endGlide v
      else if e.inp.seq ≠ .idle then e
      else if g.rate = 0 then e.readyStep v
      else e.mod fun x => { x with glide := some { g with step := .absent, timer := some g.rate } }
    else e

/-- The glide engine is told of a new mode: the targets are clamped into its range, and a STEPPING
glide with no step outstanding whose target then equals G ends (R89). -/
def Ev.clampGlide (v : Env) (e : Ev) : Ev :=
  match e.inp.glide with
  | none => e
  | some g =>
    let top := maxGain e.inp.mode
    let g' := { g with
      target := min top g.target
      staged := g.staged.map fun q => { q with target := min top q.target } }
    let e := e.mod fun x => { x with glide := some g' }
    if g.state = .stepping ∧ g.step ≠ .outstanding ∧ g'.target = e.inp.gain then e.endGlide v else e

/-- The glide engine is told that the sequencer is free: a STEPPING glide with no step in flight has its
step timer stopped and one step made ready (R88). -/
def Ev.resumeGlide (v : Env) (e : Ev) : Ev :=
  match e.inp.glide with
  | none => e
  | some g =>
    if g.state = .stepping ∧ g.step = .absent then
      (e.mod fun x => { x with glide := some { g with timer := none } }).readyStep v
    else e

/-- A WAITING glide is started, or dropped with GLIDE_DONE where its target equals G (R81). -/
def Ev.startGlide (v : Env) (g : Glide) (e : Ev) : Ev :=
  if g.target = e.inp.gain then e.endGlide v
  else (e.mod fun x => { x with glide := some { g with state := .stepping } }).readyStep v

/-- A staged retarget is applied (R82). -/
def Ev.applyRetarget (v : Env) (g : Glide) (q : Retarget) (e : Ev) : Ev :=
  let g' := { g with target := q.target, rate := q.rate, source := .owner, staged := none }
  let e := e.mod fun x => { x with glide := some g' }
  if g.step ≠ .outstanding ∧ q.target = e.inp.gain then e.endGlide v else e

/-- The input holds a WAITING glide or a staged retarget (R81). -/
def Inp.bundleGlide (x : Inp) : Bool :=
  match x.glide with
  | some g => g.state == .waiting || g.staged.isSome
  | none => false

/-- The glide engine's visit to an input at the end of a bundle (R81, R82). -/
def bundleEndAt (v : Env) (e : Ev) : Ev :=
  match e.inp.glide with
  | none => e
  | some g =>
    match g.state, g.staged with
    | .waiting, _ => e.startGlide v g
    | .stepping, some q => e.applyRetarget v g q
    | .stepping, none => e

/-- STEP TIMER EXPIRY at its input, where the timer is due (R85): it stops, and the next step is made ready
if the sequencer is IDLE. -/
def stepTimerAt (v : Env) (e : Ev) : Ev :=
  match e.inp.glide with
  | some g =>
    if isDue g.timer then
      (e.mod fun x => { x with glide := some { g with timer := none } }).readyStep v
    else e
  | none => e

/-- STEP_TIMER_EXPIRY (R85). -/
def execStepTimerExpiry (k : Input) (s : State) : Host.Outcome State Fault Refusal :=
  .next (s.atInput k stepTimerAt)

end Sys2Proof.Machine
end

