-- ==== Sys2Proof/Machine/SystemOps.lean ====
section
/-! DEFINITION. SET TIMING, READ SYSTEM STATUS, CLEAR SUPPLY, CONTROL RESET and an operation record of
an unknown kind (R125, R129 to R131, R140). -/

namespace Sys2Proof.Machine

/-- The timings set (R129). -/
def Sys.setTiming (settle discharge align : Option Byte) (y : Sys) : Sys :=
  { y with
    settle := carried 1 30 y.settle settle
    discharge := carried 5 50 y.discharge discharge
    align := carried 0 63 y.align align }

/-- SET_TIMING (R129). -/
def execSetTiming (s : State) : Host.Outcome State Fault Refusal :=
  .next (s.applyKind 0x25 fun r o =>
    match o with
    | .setTiming x y z =>
      State.gatherSingle { s with sys := s.sys.setTiming x y z } r
        (if carriedClamped 1 30 x || carriedClamped 5 50 y || carriedClamped 0 63 z then .clamped
          else .done) []
    | _ => s)

/-- The system status image (R130, R153). -/
def statusImage (s : State) : List ImageByte :=
  [partly 0x07 (fields [(s.sys.supplyFlag.toNat, 0), (s.sys.psag.toNat, 1), (s.sys.rate96.toNat, 2)])] ++
  statedAll ([byteOf s.sys.settle, byteOf s.sys.discharge, byteOf s.sys.align,
      byteOf s.executor.resetCount] ++
    setBytes (s.inputs.data.map fun x => x.fault) ++
    setBytes (s.inputs.data.map fun x => x.seq == .halted))

/-- READ_SYSTEM_STATUS (R130). -/
def execReadSystemStatus (s : State) : Host.Outcome State Fault Refusal :=
  .next (s.applyKind 0x26 fun r o =>
    match o with
    | .readSystemStatus =>
      let i := s.takeImage (statusImage s)
      i.1.gatherSingle r .done i.2
    | _ => s)

/-- CLEAR_SUPPLY (R140): the flag is cleared, even while PSAG is asserted. -/
def execClearSupply (s : State) : Host.Outcome State Fault Refusal :=
  .next (s.applyKind 0x27 fun r o =>
    match o with
    | .clearSupply =>
      State.gatherSingle { s with sys := { s.sys with supplyFlag := false } } r .done []
    | _ => s)

/-- A control reset requested (R116, R131); requests that fall together are merged. -/
def State.requestReset (s : State) : State :=
  { s with executor := { s.executor with resetRequested := true } }

/-- CONTROL_RESET (R131): the request alone; the reset is carried out at the end of the bundle. -/
def execControlReset (s : State) : Host.Outcome State Fault Refusal :=
  .next (s.applyKind 0x28 fun r o =>
    match o with
    | .controlReset => s.requestReset.gatherSingle r .done []
    | _ => s)

/-- UNKNOWN_OPERATION_KIND (R125): the next operation, of a kind the part does not know, is refused
BAD_OP with all counts 0. -/
def execUnknownOperationKind (s : State) : Host.Outcome State Fault Refusal :=
  .next (match s.nextRecord with
    | some (r, c) => if kindKnown c.kind then s else s.gather r (OpResult.whole .badOp)
    | none => s)

end Sys2Proof.Machine
end

