-- ==== Sys2Proof/Machine/Executor.lean ====
section
/-! DEFINITION. BUNDLE TAKE and BUNDLE END (R120, R122), and the CRST pin (R116). -/

namespace Sys2Proof.Machine

/-- A slot's bundle is takeable (R120). -/
def State.takeable (s : State) (d : Slot) : Bool :=
  !(s.slot d).requests.isEmpty && (s.slot d).responses.length < 4 && !s.executor.resetRequested

/-- Slots 1..5 in order after the round-robin pointer, wrapping from 5 to 1 (R120). -/
def visitOrder (pointer : Slot) : List Slot :=
  [1, 2, 3, 4, 5].filter (pointer < ·) ++ [1, 2, 3, 4, 5].filter (· ≤ pointer)

/-- The slot the executor chooses: the system slot, or the first takeable one visited (R120). -/
def State.chosen (s : State) : Option Slot :=
  if s.takeable 0 then some 0 else (visitOrder s.executor.pointer).find? s.takeable

/-- The oldest bundle of slot `d` becomes the bundle in execution (R120). -/
def State.takeBundle (s : State) (d : Slot) : State :=
  match (s.slot d).requests with
  | [] => s
  | b :: rest =>
    let t := s.modSlot d fun r => { r with requests := rest }
    { t with executor := { t.executor with
        run := some ⟨d, b.tag, b.ops, 0, [], none⟩
        pointer := if d = 0 then t.executor.pointer else d } }

/-- BUNDLE_TAKE (R120): only while IDLE; with no takeable bundle the executor stays IDLE. -/
def execBundleTake (s : State) : Host.Outcome State Fault Refusal :=
  .next (match s.executor.run, s.chosen with
    | none, some d => s.takeBundle d
    | _, _ => s)

/-- The end of a bundle (R122): the response, the glides, a requested control reset, and IDLE. -/
def State.endBundle (s : State) (r : Run) : State :=
  let s := s.modSlot r.slot fun x => { x with responses := x.responses ++ [⟨r.tag, r.results⟩] }
  let s := s.atInputs Inp.bundleGlide bundleEndAt
  let s := if s.executor.resetRequested then s.controlReset else s
  s.setRun none

/-- BUNDLE_END (R122): taken when the last operation has been applied. -/
def execBundleEnd (s : State) : Host.Outcome State Fault Refusal :=
  .next (match s.executor.run with
    | some r => if r.ops.length ≤ r.pos then s.endBundle r else s
    | none => s)

/-- CRST_ASSERT (R116): a control reset at once if no bundle is being applied, and otherwise requested for
the end of the bundle. -/
def execCrstAssert (s : State) : Host.Outcome State Fault Refusal :=
  .next (if s.executor.run.isSome then s.requestReset else s.controlReset)

end Sys2Proof.Machine
end

