-- ==== Sys2Proof/Machine/Feed.lean ====
section
/-! DEFINITION. The feed mixer: the release of an aligned change and a converter sample (R34 to R37,
R73 to R75). -/

namespace Sys2Proof.Machine

/-- The `n`-th waiting change of a tap is released if its align delay has run down, and those made before it
are discarded (R36). -/
def Tap.releaseNth (n : Nat) (t : Tap) : Tap :=
  match t.waiting[n]? with
  | some c => if c.left = 0 then t.release c.trim (t.waiting.drop (n + 1)) else t
  | none => t

/-- The last of the waiting changes whose align delay has run down, with those made after it. -/
def lastDue : List Aligned → Option (Aligned × List Aligned)
  | [] => none
  | c :: rest =>
    match lastDue rest with
    | some found => some found
    | none => if c.left = 0 then some (c, rest) else none

/-- What a sample finds released: the changes whose align delay has run down apply from it, in the order in
which they were made, so that the last of them is in force (R36). -/
def Tap.releaseDue (t : Tap) : Tap :=
  match lastDue t.waiting with
  | some (c, later) => t.release c.trim later
  | none => t

/-- ALIGNED_CHANGE_RELEASE (R36). -/
def execAlignedChangeRelease (d : Slot) (k : Input) (n : Nat) (s : State) :
    Host.Outcome State Fault Refusal :=
  .next (s.setInp k ((s.inp k).modTap d (Tap.releaseNth n)))

/-- A gate count moves by one toward its end (R74). -/
def moveGate (rising : Bool) (top count : Nat) : Nat :=
  if rising then min top (count + 1) else count - 1

/-- What a sample of the input moves at a tap: the desk gate, which rises while the desk mute is off
(R34, R74), the crossfade (R73), and the delays of the waiting changes (R36). -/
def Tap.move (rate96 : Bool) (t : Tap) : Tap :=
  { t with
    gate := moveGate (!t.mute) (gateSamples rate96) t.gate
    coef := match t.fade with
      | some f => fadeAt f.start (coefficient t.inForce) (f.done + 1) (fadeSamples rate96)
      | none => t.coef
    fade := match t.fade with
      | some f => if f.done + 1 < fadeSamples rate96 then some { f with done := f.done + 1 } else none
      | none => none
    waiting := t.waiting.map fun c => { c with left := c.left - 1 } }

/-- A sample of the input at a tap: the changes that are due are released, and then the tap moves by one
sample, which is the first of a crossfade that a release started (R36, R73; log entry 13). -/
def Tap.advance (rate96 : Bool) (t : Tap) : Tap := t.releaseDue.move rate96

/-- The sequence gate rises in IDLE and UNMUTING and falls in every other state, until it reaches its end
(R35, R74). -/
def Inp.moveSeqGate (rate96 : Bool) (x : Inp) : Nat :=
  moveGate (x.seq == .idle || x.seq == .unmuting) (gateSamples rate96) x.seqGate

/-- The feed sample of slot `d`'s channel for converter sample `v`: 0 where the slot holds no tap or the
mode is OFF (R75). -/
def Inp.feedOf (rate96 : Bool) (v : Int) (x : Inp) (d : Slot) : Int :=
  match x.tap d with
  | some t =>
    if x.mode = .off then 0 else feedSample v t.coef t.gate x.seqGate (gateSamples rate96)
  | none => 0

/-- A converter sample `v` at an input: due changes are released, gates and crossfades move by one sample, and
the six feed samples are formed with their values at this sample (R36, R75; log entry 13). -/
def Inp.sample (rate96 : Bool) (v : Int) (x : Inp) : Inp :=
  let y := { x with
    taps := x.taps.map (Option.map (Tap.advance rate96))
    seqGate := x.moveSeqGate rate96 }
  { y with feed := .ofFn (y.feedOf rate96 v) }

/-- CONVERTER_SAMPLE (R75). -/
def execConverterSample (k : Input) (sample : BitVec 24) (s : State) :
    Host.Outcome State Fault Refusal :=
  .next (s.setInp k ((s.inp k).sample s.sys.rate96 sample.toInt))

end Sys2Proof.Machine
end

