-- ==== Sys2Proof/Machine/FrontEnd.lean ====
section
/-! DEFINITION. SET PHANTOM, SET MODE and RECHECK FRONT END (R12 to R21, R56), and the events of the
command path and of the sequencer (R6, R7, R14 to R18). -/

namespace Sys2Proof.Machine

/-! ## Requests -/

/-- SET PHANTOM or SET MODE at one input: the owner check (R55), then R12, R13 and R17. -/
def requestAt (d : Slot) (value : FrontValue) (v : Env) (e : Ev) : Ev :=
  if e.inp.owner ≠ some d then e.answer .notOwner else e.request v d value

/-- SET_PHANTOM (R13). -/
def execSetPhantom (s : State) : Host.Outcome State Fault Refusal :=
  .next (s.applyKind 0x0A fun r o =>
    match o with
    | .setPhantom p on => s.onPattern r p false (applyEvent (requestAt r.slot (.phantom on)))
    | _ => s)

/-- SET_MODE (R12). -/
def execSetMode (s : State) : Host.Outcome State Fault Refusal :=
  .next (s.applyKind 0x0B fun r o =>
    match o with
    | .setMode p m => s.onPattern r p false (applyEvent (requestAt r.slot (.mode m)))
    | _ => s)

/-- RECHECK FRONT END at one input: from its owner or the system slot (R56), refused BUSY while one is in
progress, and otherwise placed on the command path (R20). -/
def recheckAt (d : Slot) (v : Env) (e : Ev) : Ev :=
  if e.inp.owner ≠ some d ∧ d ≠ 0 then e.answer .notOwner
  else if e.inp.recheck then e.answer .busy
  else ((e.mod fun x => { x with recheck := true }).join v .recheck).answer .done

/-- RECHECK_FRONT_END (R20). -/
def execRecheckFrontEnd (s : State) : Host.Outcome State Fault Refusal :=
  .next (s.applyKind 0x0C fun r o =>
    match o with
    | .recheckFrontEnd p => s.onPattern r p false (applyEvent (recheckAt r.slot))
    | _ => s)

/-! ## Acknowledgement -/

/-- The input table records the values an acknowledged write carried (R6). -/
def Inp.record (w : Write) (x : Inp) : Inp :=
  match w with
  | .gain g => { x with gain := g }
  | .mode m g => { x with mode := m, gain := g }
  | .phantom on => { x with phantom := on }

/-- The values recorded; where N changed, the tracking computation runs for every non-owner tap (R6,
R29). -/
def Inp.recordTracked (align : Nat) (w : Write) (x : Inp) : Inp :=
  let y := x.record w
  if y.net = x.net then y else y.trackAll align

/-- A recheck's three writes are acknowledged (R21): it ends, the fault clears, and a HALTED sequencer
goes to SETTLING, or to UNMUTING where its change was abandoned. -/
def Inp.recheckDone (y : Sys) (x : Inp) : Inp :=
  let x := { x with recheck := false, fault := false }
  if x.seq = .halted then
    if x.inFlight.any (·.abandoned) then x.startUnmuting else x.startSettling y
  else x

/-- The acknowledgement is handed to the block that issued the write (R6): a step to the glide engine,
after the owner's trim is raised for a guard step (R84), a switching write to the sequencer (R15), the
last recheck write to its group (R21). -/
def Ev.toIssuer (v : Env) (i : Issuer) (e : Ev) : Ev :=
  match i with
  | .step .guard => (e.mod (Inp.raiseOwnerTrim v.sys.align)).stepAcked v
  | .step .owner => e.stepAcked v
  | .switching => e.mod fun x => if x.seq = .switching then x.startSettling v.sys else x
  | .recheck n => if n = 2 then e.mod (Inp.recheckDone v.sys) else e
  | .startUp _ => e

/-- The outstanding write is completed and the path moves on: to the next write of the same group if it
has one left, and otherwise to the oldest waiting group (R5). -/
def Ev.moveOn (v : Env) (i : Issuer) (e : Ev) : Ev :=
  let e := e.mod fun x => { x with outstanding := none }
  match i with
  | .recheck 0 => e.issueRecheckPhantom v
  | .recheck 1 => e.mod fun x => x.issue (.gain x.gain) (.recheck 2)
  | .startUp 0 => e.mod (Inp.issue (.phantom false) (.startUp 1))
  | _ => e.pump v

/-- The acknowledgement of the outstanding write, ignored where none is outstanding (R6). A write that
changed the mode has the glide's targets clamped (R71, R89). -/
def ackAt (v : Env) (e : Ev) : Ev :=
  match e.inp.outstanding with
  | none => e
  | some o =>
    let old := e.inp.mode
    let e := e.mod (Inp.recordTracked v.sys.align o.write)
    let e := if e.inp.mode = old then e else e.clampGlide v
    (e.toIssuer v o.issuer).moveOn v o.issuer

/-- The acknowledgement that comes to input `k` is the late one of a write that has failed or was forgotten:
only where such a write is unanswered, and then always with no write outstanding, and as a free value says
beside an outstanding one, since the spec does not say how the part tells the two apart (DESIGN CHOICE, log
entry 21). -/
def State.ackLate (s : State) (k : Input) : Bool :=
  (s.inp k).unanswered != 0 && ((s.inp k).outstanding.isNone || Config.ackIsLate s.freeCount)

/-- The state once that is judged: the free value is named where a write is unanswered (log entry 21). -/
def State.ackJudged (s : State) (k : Input) : State :=
  if (s.inp k).unanswered = 0 then s else { s with freeCount := s.freeCount + 1 }

/-- FRONT_END_ACK (R6). A late acknowledgement is ignored, whatever is outstanding (R7, R8, R94). -/
def execFrontEndAck (k : Input) (s : State) : Host.Outcome State Fault Refusal :=
  .next (if s.ackLate k then
      (s.ackJudged k).setInp k { s.inp k with unanswered := (s.inp k).unanswered - 1 }
    else (s.ackJudged k).atInput k ackAt)

/-! ## Failure -/

/-- The failure of the outstanding write once its 4 ms have passed (R7): the rest of its group is discarded,
which ends a recheck (R21), the input enters FAULT (R10), and the path issues the oldest waiting group. An
acknowledgement of that write may still come (log entry 21). -/
def failAt (v : Env) (e : Ev) : Ev :=
  match e.inp.outstanding with
  | none => e
  | some o =>
    if o.left = 0 then
      let e := e.mod fun x => { x with
        outstanding := none
        unanswered := x.unanswered + 1
        recheck := match o.issuer with
          | .recheck _ => false
          | _ => x.recheck }
      (e.enterFault v).pump v
    else e

/-- WRITE_FAIL (R7). -/
def execWriteFail (k : Input) (s : State) : Host.Outcome State Fault Refusal :=
  .next (s.atInput k failAt)

/-! ## The sequence -/

/-- The end of the mute ramp, which is there only in MUTING with the sequence gate at 0 (R74; elsewhere
nothing happens, log entry 8). A phantom-ON change that meets PSAG is abandoned and the sequencer goes to
UNMUTING; otherwise it goes to SWITCHING and readies its switching write (R14, R15). -/
def muteRampEndAt (v : Env) (e : Ev) : Ev :=
  match e.inp.inFlight with
  | some c =>
    if e.inp.seq = .muting ∧ e.inp.seqGate = 0 then
      if c.value = .phantom true ∧ v.sys.psag then
        (e.mod fun x => { x.startUnmuting with
          inFlight := some { c with abandoned := true } }).tellDesk c.desk
      else (e.mod fun x => { x with seq := .switching }).join v .switching
    else e
  | none => e

/-- MUTE_RAMP_END (R14). -/
def execMuteRampEnd (k : Input) (s : State) : Host.Outcome State Fault Refusal :=
  .next (s.atInput k muteRampEndAt)

/-- SETTLE_TIMER_EXPIRY, where the settle timer is due (R16): SETTLING to UNMUTING. -/
def execSettleTimerExpiry (k : Input) (s : State) : Host.Outcome State Fault Refusal :=
  .next (s.atInput k fun _ e =>
    if e.inp.seq = .settling ∧ isDue e.inp.settleLeft then e.mod Inp.startUnmuting else e)

/-- The pending request is removed and judged at the return to IDLE (R18): dropped where its desk is no
longer the owner, where the input is in FAULT or where it would be refused, complete where it equals
the record, and otherwise started as a new sequence. -/
def Ev.recheckRequest (v : Env) (q : Request) (e : Ev) : Ev :=
  let e := e.mod fun x => { x with request := none }
  if e.inp.owner ≠ some q.desk ∨ e.inp.fault then e.tellDesk q.desk
  else
    match e.inp.judge v.sys q.value with
    | none => e.mod (Inp.startSequence q.value q.desk)
    | some .done => e
    | some _ => e.tellDesk q.desk

/-- The end of the unmute ramp, which is there only in UNMUTING with the sequence gate at its full count
(R74; elsewhere nothing happens, log entry 8): the sequencer returns to IDLE, a pending request is
re-checked, and the glide engine is told if the sequencer is still IDLE (R16). -/
def unmuteRampEndAt (v : Env) (e : Ev) : Ev :=
  if e.inp.seq = .unmuting ∧ e.inp.seqGate = gateSamples v.sys.rate96 then
    let e := e.mod fun x => { x with seq := .idle, inFlight := none }
    let e := match e.inp.request with
      | some q => e.recheckRequest v q
      | none => e
    if e.inp.seq = .idle then e.resumeGlide v else e
  else e

/-- UNMUTE_RAMP_END (R16). -/
def execUnmuteRampEnd (k : Input) (s : State) : Host.Outcome State Fault Refusal :=
  .next (s.atInput k unmuteRampEndAt)

end Sys2Proof.Machine
end

