-- ==== Sys2Proof/Machine/GuardUnit.lean ====
section
/-! DEFINITION. The overload guard: clips, the window, the threshold and the back-off (R97 to R101),
and CONFIGURE INPUT (R3, R96). -/

namespace Sys2Proof.Machine

/-- A clip is counted: the policy is not OFF, the sequencer is IDLE and the mode is not OFF (R97). -/
def Inp.countsClips (x : Inp) : Bool :=
  x.guard.policy != .off && x.seq == .idle && x.mode != .off

/-- The outcome at the threshold (R99). -/
def Inp.outcome (x : Inp) : GuardOutcome :=
  match x.guard.policy with
  | .backoff => if x.fault then .inFault else if x.gain = 0 then .atFloor else .backedOff
  | _ => .reported

/-- The guard's target: the greater of 0 dB and G less the back-off step (R101). -/
def Inp.guardTarget (x : Inp) : Nat := x.gain - x.guard.backStep

/-- The planned amount: from the present target of a guard glide, or from G, down to the new target, and
0 where that is negative (R101; R77 says what the present target is, log entry 19). -/
def Inp.plannedAmount (x : Inp) : Nat :=
  (match x.glide with
    | some g => if g.source = .guard then g.present else x.gain
    | none => x.gain) - x.guardTarget

/-- The guard glide to `target`, created at once (R92): it replaces any glide, whose step in flight it
inherits, and readies its first step where none is in flight. -/
def Ev.guardGlide (v : Env) (target : Nat) (e : Ev) : Ev :=
  let step := match e.inp.glide with
    | some g => g.step
    | none => .absent
  let e := e.mod fun x => { x with
    glide := some ⟨target, 2, .guard, .stepping, step, none, none⟩ }
  if step = .absent then e.readyStep v else e

/-- A back-off: the total grows by the planned amount, to at most 60 dB, and the guard glide starts
(R101). -/
def Ev.backOff (v : Env) (e : Ev) : Ev :=
  Ev.guardGlide v e.inp.guardTarget (e.mod fun x =>
    { x with guard := { x.guard with total := min 60 (x.guard.total + x.plannedAmount) } })

/-- OVERLOAD and the mark for every slot holding a tap, and for every observer (R99). -/
def Ev.tellOverload (v : Env) (e : Ev) : Ev :=
  let told := (List.finRange 6).filter fun d => e.inp.holds d || (v.slots.get d).observes
  e.emit (told.map (.raise .overload) ++ told.map .mark)

/-- The threshold is reached (R99). -/
def Ev.threshold (v : Env) (e : Ev) : Ev :=
  let o := e.inp.outcome
  let e := e.mod fun x => { x with guard := { x.guard with count := 0, timer := none, last := o } }
  (if o = .backedOff then e.backOff v else e).tellOverload v

/-- A clip at its input (R97): counted or ignored. -/
def clipAt (v : Env) (e : Ev) : Ev :=
  if e.inp.countsClips then
    let e := e.mod fun x => { x with guard := { x.guard with
      timer := some (x.guard.timer.getD (250 * x.guard.window))
      count := min 15 (x.guard.count + 1) } }
    if e.inp.guard.threshold ≤ e.inp.guard.count then e.threshold v else e
  else e

/-- CLIP_INDICATION (R97). -/
def execClipIndication (k : Input) (s : State) : Host.Outcome State Fault Refusal :=
  .next (s.atInput k clipAt)

/-- WINDOW_EXPIRY, where the window timer is due (R98): the count becomes 0 and the timer stops. -/
def execWindowExpiry (k : Input) (s : State) : Host.Outcome State Fault Refusal :=
  .next (s.atInput k fun _ e =>
    if isDue e.inp.guard.timer then
      e.mod fun x => { x with guard := { x.guard with count := 0, timer := none } }
    else e)

/-! ## CONFIGURE INPUT -/

/-- The guard settings applied (R96): a new policy, threshold or window restarts the counting. -/
def Guard.configure (c : InputConfig) (g : Guard) : Guard :=
  let policy := c.policy.getD g.policy
  let threshold := carried 1 15 g.threshold c.threshold
  let window := carried 1 16 g.window c.window
  let g := { g with backStep := carried 1 6 g.backStep c.backStep }
  if policy = g.policy ∧ threshold = g.threshold ∧ window = g.window then g
  else { g with policy := policy, threshold := threshold, window := window, count := 0, timer := none }

/-- Setting phantom lock is refused PHANTOM_ON while phantom is ON or the sequencer is not IDLE; setting
a lock that is set changes nothing (R3, log entry 16). -/
def Inp.lockRefused (c : InputConfig) (x : Inp) : Bool :=
  c.lock == some true && !x.lock && (x.phantom || x.seq != .idle)

/-- CONFIGURE INPUT at one input: the lock is judged first, and refuses the whole (R96). -/
def configureInputAt (c : InputConfig) (_ : Env) (e : Ev) : Ev :=
  if e.inp.lockRefused c then e.answer .phantomOn
  else
    (e.mod fun x => { x with
      lock := c.lock.getD x.lock
      isProtected := c.isProtected.getD x.isProtected
      guard := x.guard.configure c }).answer
      (if carriedClamped 1 15 c.threshold || carriedClamped 1 16 c.window ||
          carriedClamped 1 6 c.backStep then .clamped else .done)

/-- CONFIGURE_INPUT (R96). -/
def execConfigureInput (s : State) : Host.Outcome State Fault Refusal :=
  .next (s.applyKind 0x20 fun r o =>
    match o with
    | .configureInput p c => s.onPattern r p false (applyEvent (configureInputAt c))
    | _ => s)

end Sys2Proof.Machine
end

