-- ==== Sys2Proof/Machine/Ownership.lean ====
section
/-! DEFINITION. CLAIM and RELEASE (R43 to R48). -/

namespace Sys2Proof.Machine

/-- An ordinary claim: the slot joins the queue behind the last entry of its rank or above, or keeps
its place there (R42, R44). -/
def joinQueue (v : Env) (d : Slot) (x : Inp) : Inp :=
  if d ∈ x.queue then x
  else { x with queue := insertBehind (fun c => v.rank d ≤ v.rank c) d x.queue }

/-- A displaced owner is inserted behind the last entry whose rank is above its own (R42, R45). -/
def displace (v : Env) (d : Slot) (x : Inp) : Inp :=
  { x with queue := insertBehind (fun c => v.rank d < v.rank c) d x.queue }

/-- A pre-emption of owner `old` by `d` (R45). -/
def Ev.preempt (v : Env) (d old : Slot) (e : Ev) : Ev :=
  ((e.mod (Inp.leaveQueue d)).handOver (some d)).mod (displace v old)

/-- CLAIM at one input: the first case that applies decides (R43). -/
def claimAt (d : Slot) (force : Bool) (v : Env) (e : Ev) : Ev :=
  let r := v.slots.get d
  if !r.perms.own then e.answer .denied
  else if r.state != .opened then e.answer .deskState
  else if !e.inp.holds d then e.answer .noTap
  else
    match e.inp.owner with
    | none => (e.handOver (some d)).answer .done
    | some o =>
      if o = d then e.answer .done
      else if force && r.perms.preempt && v.rank o < v.rank d then (e.preempt v d o).answer .done
      else (e.mod (joinQueue v d)).answer .queued

/-- CLAIM (R43). -/
def execClaim (s : State) : Host.Outcome State Fault Refusal :=
  .next (s.applyKind 0x06 fun r o =>
    match o with
    | .claim p force => s.onPattern r p false (applyEvent (claimAt r.slot force))
    | _ => s)

/-- RELEASE at one input: from the owner a hand-over, from a queued slot its place in the queue, and
NOT_OWNER otherwise (R47, R48). -/
def releaseAt (d : Slot) (_ : Env) (e : Ev) : Ev :=
  if e.inp.owner = some d then e.handOn.answer .done
  else if d ∈ e.inp.queue then (e.mod (Inp.leaveQueue d)).answer .done
  else e.answer .notOwner

/-- RELEASE (R47, R48). -/
def execRelease (s : State) : Host.Outcome State Fault Refusal :=
  .next (s.applyKind 0x07 fun r o =>
    match o with
    | .release p => s.onPattern r p false (applyEvent (releaseAt r.slot))
    | _ => s)

end Sys2Proof.Machine
end

