-- ==== Sys2Proof/Machine/Pins.lean ====
section
/-! DEFINITION. The PORST and PSAG pins (R8, R22). -/

namespace Sys2Proof.Machine

/-- An input after a power-on reset, with a write that was outstanding forgotten, whose acknowledgement may
still come (R8, R94; log entry 21). -/
def Inp.powerOn (rate96 : Bool) (x : Inp) : Inp :=
  { Inp.reset rate96 with
    unanswered := if x.outstanding.isSome then x.unanswered + 1 else x.unanswered }

/-- POWER_ON_RESET (R8, R38, R61, R94, R104, R118, R119, R142, R149). The levels of PSAG and of the
strap are the pins' own, and PSAG asserted then counts as an assertion (R22). -/
def execPowerOnReset (s : State) : Host.Outcome State Fault Refusal :=
  .next { State.powerOn s.sys.psag s.sys.rate96 s.freeCount s.pending with
    inputs := s.inputs.map (Inp.powerOn s.sys.rate96) }

/-- PSAG_ASSERT (R22): the passage from not asserted to asserted sets the supply flag and raises SUPPLY
for the system slot. -/
def execPsagAssert (s : State) : Host.Outcome State Fault Refusal :=
  .next (if s.sys.psag then s
    else
      State.modSlot { s with sys := { s.sys with psag := true, supplyFlag := true } } 0
        (SlotRec.raise .supply))

/-- PSAG_DEASSERT (R22): the flag stays set. -/
def execPsagDeassert (s : State) : Host.Outcome State Fault Refusal :=
  .next { s with sys := { s.sys with psag := false } }

end Sys2Proof.Machine
end

