-- ==== Sys2Proof/Machine/Desks.lean ====
section
/-! DEFINITION. The desk operations and the presence timer (R108 to R114). -/

namespace Sys2Proof.Machine

/-- The slot a desk operation names: 6 and 7 name none (section 7.3). -/
def namedSlot (d : BitVec 3) : Option Slot :=
  if h : d.toNat < 6 then some ⟨d.toNat, h⟩ else none

/-- A desk operation on the slot it names: DESK_STATE with all counts 0 for 6 and 7 (R126, R128), and
otherwise one application. -/
def State.onDesk (s : State) (r : Run) (d : BitVec 3) (one : Slot → State → Applied) : State :=
  match namedSlot d with
  | none => s.gather r (OpResult.whole .deskState)
  | some d => let a := one d s; a.state.gatherSingle r a.code a.image

/-! ## CONFIGURE DESK -/

/-- The attributes carried, written; an absent one is left as it stands (R108). -/
def SlotRec.configure (rank : Option Byte) (perms : Option Perms) (timeout : Option Byte)
    (r : SlotRec) : SlotRec :=
  { r with
    rank := carried 1 7 r.rank rank
    perms := perms.getD r.perms
    timeout := carried 1 60 r.timeout timeout }

/-- CONFIGURE DESK on a slot: taken only while it is CLOSED (R106, R108). -/
def configureDeskOne (rank : Option Byte) (perms : Option Perms) (timeout : Option Byte) (d : Slot)
    (s : State) : Applied :=
  if (s.slot d).state = .closed ∧ d ≠ 0 then
    ⟨s.modSlot d (SlotRec.configure rank perms timeout),
      if carriedClamped 1 7 rank || carriedClamped 1 60 timeout then .clamped else .done, []⟩
  else ⟨s, .deskState, []⟩

/-- CONFIGURE_DESK (R108). -/
def execConfigureDesk (s : State) : Host.Outcome State Fault Refusal :=
  .next (s.applyKind 0x21 fun r o =>
    match o with
    | .configureDesk d rank perms timeout =>
      s.onDesk r d (configureDeskOne rank perms timeout)
    | _ => s)

/-! ## OPEN DESK -/

/-- The presence timer loaded with the presence timeout, in ms (R113). -/
def SlotRec.reload (r : SlotRec) : SlotRec := { r with timer := some (1000 * r.timeout) }

/-- OPEN DESK on a slot (R109). -/
def openDeskOne (d : Slot) (s : State) : Applied :=
  if (s.slot d).state = .closed ∧ d ≠ 0 then
    ⟨s.modSlot d fun r => { r.reload with state := .opened }, .done, []⟩
  else ⟨s, .deskState, []⟩

/-- OPEN_DESK (R109). -/
def execOpenDesk (s : State) : Host.Outcome State Fault Refusal :=
  .next (s.applyKind 0x22 fun r o =>
    match o with
    | .openDesk d => s.onDesk r d openDeskOne
    | _ => s)

/-! ## CLOSE DESK -/

/-- The slot's own part of the teardown, after its taps are retired (R110 steps 1, 3, 4, 5). Its
attributes are kept. -/
def SlotRec.tearDown (r : SlotRec) : SlotRec :=
  { r with
    timer := none
    requests := []
    responses := []
    overrun := false
    threshold := 2
    marks := .fill 64 false
    flags := .clear
    pulse := none
    enables := resetEnables
    state := .closed }

/-- The teardown of a slot (R110): every tap retired in ascending input order, then the slot's own part.
The marks that the retirements set for the slot itself are cleared with the rest. -/
def State.closeSlot (s : State) (d : Slot) : State :=
  (s.atInputs (fun x => x.holds d) (fun _ e => e.retire d)).modSlot d SlotRec.tearDown

/-- CLOSE DESK on a slot (R106, R110). -/
def closeDeskOne (d : Slot) (s : State) : Applied :=
  if d = 0 then ⟨s, .deskState, []⟩
  else if (s.slot d).state = .closed then ⟨s, .done, []⟩
  else ⟨s.closeSlot d, .done, []⟩

/-- CLOSE_DESK (R110). -/
def execCloseDesk (s : State) : Host.Outcome State Fault Refusal :=
  .next (s.applyKind 0x23 fun r o =>
    match o with
    | .closeDesk d => s.onDesk r d closeDeskOne
    | _ => s)

/-! ## READ DESK -/

def DeskState.code : DeskState → Nat
  | .closed => 0
  | .opened => 1
  | .absent => 2

/-- The number of inputs that meet `p`. -/
def State.countInputs (s : State) (p : Inp → Bool) : Nat := s.inputs.data.countP p

/-- The desk image (R112, R153). For the system slot the timeout and timer read as absent. -/
def deskImage (s : State) (d : Slot) : List ImageByte :=
  let r := s.slot d
  [stated (byteOf d), stated (byteOf r.state.code), stated (byteOf r.rank),
    partly 0x0F r.perms.toByte, stated (byteOf (if d = 0 then 0 else r.timeout))] ++
  statedAll (natBytes (if d = 0 then 0xFFFF else r.timer.getD 0xFFFF)) ++
  [stated (byteOf (s.countInputs fun x => x.holds d)),
    stated (byteOf (s.countInputs fun x => x.owner == some d)),
    stated (byteOf (s.countInputs fun x => x.queue.contains d)),
    stated (fields [(r.requests.length, 4), (r.responses.length, 0)]),
    partly 0x01 (fields [(r.overrun.toNat, 0)])]

/-- READ DESK of a slot (R112). -/
def readDeskOne (d : Slot) (s : State) : Applied :=
  let i := s.takeImage (deskImage s d)
  ⟨i.1, .done, i.2⟩

/-- READ_DESK (R112). -/
def execReadDesk (s : State) : Host.Outcome State Fault Refusal :=
  .next (s.applyKind 0x24 fun r o =>
    match o with
    | .readDesk d => s.onDesk r d readDeskOne
    | _ => s)

/-! ## Presence -/

/-- The slot's own part of going ABSENT: its timer is stopped and its queues are emptied; marks, flags,
enables, overrun flag and threshold are kept (R114). -/
def SlotRec.goAbsent (r : SlotRec) : SlotRec :=
  { r with state := .absent, timer := none, requests := [], responses := [] }

/-- A slot goes ABSENT: every input it owns is handed over and it leaves every claim queue, in ascending
input order (R57), then its own part (R114). -/
def State.absence (s : State) (d : Slot) : State :=
  (s.atInputs (fun x => x.owner == some d || x.queue.contains d) (fun _ e => e.leave d)).modSlot d
    SlotRec.goAbsent

/-- PRESENCE_TIMER_EXPIRY (R114): the expiry of a presence timer that is due, so that a bundle accepted
first leaves no expiry (R113). -/
def execPresenceTimerExpiry (d : Slot) (s : State) : Host.Outcome State Fault Refusal :=
  .next (if (s.slot d).state = .opened ∧ isDue (s.slot d).timer then s.absence d else s)

/-- GLIDE_DONE_PULSE_END (R138): the slot's pulse window closes when its 1 ms has run. -/
def execGlideDonePulseEnd (d : Slot) (s : State) : Host.Outcome State Fault Refusal :=
  .next (if isDue (s.slot d).pulse then s.modSlot d fun r => { r with pulse := none } else s)

end Sys2Proof.Machine
end

