-- ==== Sys2Proof/WellFormed.lean ====
section
/-! DEFINITION. Which commands, operations and bundles are well formed. -/

namespace Sys2Proof

/-- A command is well formed when it can be the event it names: an ignored transaction has a command
byte that makes it so (R143), and only slots 1..5 have a presence timer (R106). -/
def Instr.wf : Instr → Bool
  | .ignoredTransaction (some cmd) _ => ignorable cmd
  | .presenceTimerExpiry d => d != 0
  | _ => true

/-- An operation that a record can carry: a SET NOTICE ENABLES names no notice in both sets (R151). -/
def Op.wf : Op → Bool
  | .setNoticeEnables on off => !on.meets off
  | _ => true

/-- A bundle that a frame can carry (R144). -/
def Bundle.wf (b : Bundle) : Bool :=
  1 ≤ b.ops.length && b.ops.length ≤ 16 && b.ops.all (fun r => r.params.length ≤ 15)

end Sys2Proof
end

