-- ==== Sys2Proof/Machine/PortOps.lean ====
section
/-! DEFINITION. The transactions of the control port (R143 to R149) and the response layout (R152). A
transaction is one event: what it shifts out is taken from the state it meets (log entry 11). -/

namespace Sys2Proof.Machine

/-- A transaction on the pins of the port is the command that its bytes spell (R143), and that command joins
the queue (log entry 22). -/
def State.receive (s : State) (bytes : List Byte) (stray : Fin 8) : State :=
  { s with pending := s.pending ++ [readTransaction bytes stray] }

/-- What the transaction shifted out: the summary byte, then `bytes` (R143). -/
def State.shiftOut (s : State) (bytes : List Byte) : State :=
  { s with port := { s.port with sdo := s.summaryByte :: bytes } }

def zeros (n : Nat) : List Byte := List.replicate n 0

/-- The first `n` bytes of a read, 0x00 beyond its end (R143). -/
def readOut (n : Nat) (bytes : List Byte) : List Byte := bytes.take n ++ zeros (n - bytes.length)

/-! ## WRITE BUNDLE -/

/-- The outcome of a frame that carries bundle `b`, or of one that is MALFORMED (R144). -/
def State.frameOutcome (s : State) (d : Slot) (b : Except FrameProblem Bundle) : FrameOutcome :=
  match b with
  | .error _ => .malformed
  | .ok _ =>
    if (s.slot d).state = .closed then .closed
    else if 8 ≤ (s.slot d).requests.length then .full
    else .accepted

/-- The slot at the acceptance of a bundle: it is queued, and for slots 1..5 the presence timer is
reloaded and an ABSENT slot returns to OPEN (R113, R115, R144). -/
def SlotRec.accept (d : Slot) (b : Bundle) (r : SlotRec) : SlotRec :=
  let r := { r with requests := r.requests ++ [b] }
  if d = 0 then r else { r.reload with state := .opened }

/-- The slot at a bundle refused FULL: its overrun flag is set and OVERRUN raised (R144). -/
def SlotRec.refuse (r : SlotRec) : SlotRec := SlotRec.raise .overrun { r with overrun := true }

/-- A frame judged (R144, R149): the last-frame outcome takes the outcome and the slot. -/
def State.judgeFrame (s : State) (d : Slot) (b : Except FrameProblem Bundle) : State :=
  let o := s.frameOutcome d b
  let t := match b, o with
    | .ok b, .accepted => s.modSlot d (SlotRec.accept d b)
    | _, .full => s.modSlot d SlotRec.refuse
    | _, _ => s
  { t with port := { t.port with
      lastOutcome := o
      lastSlot := BitVec.ofNat 3 d
      error := t.port.error || o == .malformed } }

/-- WRITE_BUNDLE (R144). SDO shifts out 0x00 (R143). -/
def execWriteBundle (d : Slot) (bytes : List Byte) (stray : Fin 8) (s : State) :
    Host.Outcome State Fault Refusal :=
  .next ((s.shiftOut (zeros bytes.length)).judgeFrame d (parseBundle bytes stray))

/-! ## READ RESPONSE -/

/-- The result codes' values (R152). -/
def ResultCode.value : ResultCode → Byte
  | .done => 0x00
  | .clamped => 0x01
  | .queued => 0x02
  | .pending => 0x03
  | .noMatch => 0x10
  | .noTap => 0x11
  | .tapOpen => 0x12
  | .notOwner => 0x13
  | .denied => 0x14
  | .busy => 0x15
  | .locked => 0x16
  | .phantomOn => 0x17
  | .modeConflict => 0x18
  | .supply => 0x19
  | .fault => 0x1A
  | .badPattern => 0x1B
  | .badOp => 0x1C
  | .deskState => 0x1D

/-- A result in a response (R152). -/
def OpResult.toBytes (x : OpResult) : List Byte :=
  [x.code.value, byteOf x.matched, byteOf x.applied, byteOf x.refused,
    (x.first.map fun k => byteOf k).getD 0xFF, byteOf x.image.length] ++ x.image

/-- A response, its length with its 4 bytes of header (R152). -/
def Response.toBytes (x : Response) : List Byte :=
  let body := x.results.flatMap OpResult.toBytes
  [x.tag, byteOf x.results.length] ++ natBytes (body.length + 4) ++ body

/-- What READ RESPONSE shifts out: the oldest response, or the empty-response marker (R147). -/
def SlotRec.oldest (r : SlotRec) : List Byte :=
  match r.responses with
  | x :: _ => x.toBytes
  | [] => [0, 0, 0, 4]

/-- READ_RESPONSE (R147): the response is removed if every one of its bytes was shifted out. -/
def execReadResponse (d : Slot) (n : Nat) (s : State) : Host.Outcome State Fault Refusal :=
  let bytes := (s.slot d).oldest
  let t := s.shiftOut (readOut n bytes)
  .next (if bytes.length ≤ n then t.modSlot d fun r => { r with responses := r.responses.drop 1 }
    else t)

/-! ## READ PORT STATUS -/

def FrameOutcome.code : FrameOutcome → Nat
  | .none => 0
  | .accepted => 1
  | .full => 2
  | .closed => 3
  | .malformed => 4

/-- The two bytes of a slot in the port status (R152). -/
def slotEntry (r : SlotRec) : List ImageByte :=
  [stated (fields [(r.requests.length, 4), (r.responses.length, 1), (r.room.toNat, 0)]),
    partly 0xF7 (fields [(r.state.code, 6), (r.overrun.toNat, 5), (r.contributes.toNat, 4),
      (r.threshold, 0)])]

/-- The port status image (R149, R152). -/
def portImage (s : State) : List ImageByte :=
  [stated s.summaryByte,
    partly 0x77 (fields [(s.port.lastOutcome.code, 4), (s.port.lastSlot.toNat, 0)])] ++
  s.slots.data.flatMap slotEntry

/-- READ_PORT_STATUS (R149): at the release the error flag is cleared if the summary byte of the image was
shifted out, and a slot's overrun flag if its second entry byte was. -/
def execReadPortStatus (n : Nat) (s : State) : Host.Outcome State Fault Refusal :=
  let i := s.takeImage (portImage s)
  let t := i.1.shiftOut (readOut n i.2)
  .next { t with
    port := { t.port with error := t.port.error && n == 0 }
    slots := .ofFn fun d =>
      { t.slot d with overrun := (t.slot d).overrun && decide (n < 2 * d.val + 4) } }

/-! ## SET QUEUE THRESHOLD -/

/-- SDO after the command byte: the slot's present threshold for the value byte; the spec states no value
for the bytes beyond it (log entry 6). -/
def thresholdOut (r : SlotRec) (n : Nat) : List ImageByte :=
  (stated (byteOf r.threshold) :: List.replicate (n - 1) unstated).take n

/-- SET_QUEUE_THRESHOLD (R148). -/
def execSetQueueThreshold (d : Slot) (bytes : List Byte) (s : State) :
    Host.Outcome State Fault Refusal :=
  let i := s.takeImage (thresholdOut (s.slot d) bytes.length)
  let t := i.1.shiftOut i.2
  .next (match bytes with
    | [] => { t with port := { t.port with error := true } }
    | v :: _ =>
      if (t.slot d).live ∧ v.toNat ≤ 7 then t.modSlot d fun r => { r with threshold := v.toNat } else t)

/-! ## Ignored transactions -/

/-- IGNORED_TRANSACTION (R143): the last-frame error flag is set, and SDO shifts out 0x00 after the
command byte. An ignored WRITE BUNDLE makes the last-frame outcome MALFORMED with its slot field. A
command byte that is not complete shifts out no complete byte, and whatever bits of it came in, the
transaction counts as no WRITE BUNDLE and the outcome stays (DESIGN CHOICE, log entry 23). A byte that is
not ignorable makes this another row's transaction, and nothing happens here (log entry 8). -/
def execIgnoredTransaction (cmd : Option Byte) (n : Nat) (s : State) :
    Host.Outcome State Fault Refusal :=
  .next (match cmd with
    | none => { s with port := { s.port with sdo := [], error := true } }
    | some c =>
      if ignorable c then
        let t := s.shiftOut (zeros n)
        if commandCode c = 1 then
          { t with port := { t.port with
              error := true, lastOutcome := .malformed, lastSlot := c.setWidth 3 } }
        else { t with port := { t.port with error := true } }
      else s)

end Sys2Proof.Machine
end

