-- ==== Sys2Proof/Machine/Reading.lean ====
section
/-! DEFINITION. READ INPUT, READ MARKS, CLEAR MARKS, SET NOTICE ENABLES, CLEAR NOTICES and KEEPALIVE
(R132, R133, R136, R139). -/

namespace Sys2Proof.Machine

/-! ## READ INPUT -/

def SeqState.code : SeqState → Nat
  | .idle => 0
  | .muting => 1
  | .switching => 2
  | .settling => 3
  | .unmuting => 4
  | .halted => 5

def GuardOutcome.code : GuardOutcome → Nat
  | .none => 0
  | .reported => 1
  | .backedOff => 2
  | .atFloor => 3
  | .inFault => 4

/-- The kind of a change: 0 MODE, 1 PHANTOM (R153). -/
def FrontValue.kind : FrontValue → Nat
  | .mode _ => 0
  | .phantom _ => 1

/-- Its value: a mode code or a phantom code (R153). -/
def FrontValue.code : FrontValue → Nat
  | .mode m => m.code
  | .phantom on => on.toNat

/-- Byte 7 of the input image; no bit is stated where no change is in flight. -/
def changeByte (c : Option Change) : ImageByte :=
  match c with
  | some c => partly 0xF3 (fields [(c.value.kind, 7), (c.desk, 4), (c.value.code, 0)])
  | none => unstated

/-- Byte 8 of the input image; where no request is pending only its present bit is stated. -/
def requestByte (q : Option Request) : ImageByte :=
  match q with
  | some q => partly 0xFB (fields [(1, 7), (q.value.kind, 6), (q.desk, 3), (q.value.code, 0)])
  | none => partly 0x80 0

/-- Byte 9 of the input image. -/
def ownerByte (o : Option Slot) : ImageByte :=
  match o with
  | some d => partly 0x87 (fields [(1, 7), (d, 0)])
  | none => partly 0x80 0

/-- Bytes 11..15 of the input image: the claim queue from the head, 0 beyond its length. -/
def queueBytes (s : State) (q : List Slot) : List ImageByte :=
  (List.range 5).map fun i =>
    match q[i]? with
    | some d => partly 0xF7 (fields [((s.slot d).rank, 4), (d, 0)])
    | none => stated 0

/-- Bytes 19..23 of the input image. Where no glide is held, neither is a step or a staged retarget. -/
def glideBytes (g : Option Glide) : List ImageByte :=
  match g with
  | none => [partly 0x98 0, unstated, unstated, unstated, unstated]
  | some g =>
    [partly 0xF8 (fields [(1, 7), (if g.source = .guard then 1 else 0, 6),
        (if g.state = .stepping then 1 else 0, 5), (if g.step = .absent then 0 else 1, 4),
        (g.staged.isSome.toNat, 3)]),
      stated (byteOf g.target), stated (byteOf g.rate)] ++
    (match g.staged with
      | some q => [stated (byteOf q.target), stated (byteOf q.rate)]
      | none => [unstated, unstated])

/-- Bytes 24..31 of the input image. -/
def guardBytes (g : Guard) : List ImageByte :=
  partly 0x73 (fields [(g.policy.code, 0), (g.last.code, 4)]) ::
  statedAll ([byteOf g.threshold, byteOf g.window, byteOf g.backStep, byteOf g.count,
    byteOf g.total] ++ natBytes (g.timer.getD 0xFFFF))

/-- The input image (R132, R153). -/
def inputImage (s : State) (k : Input) : List ImageByte :=
  let x := s.inp k
  [stated (byteOf k),
    partly 0x7F (fields [(x.mode.code, 0), (x.phantom.toNat, 2), (x.lock.toNat, 3),
      (x.isProtected.toNat, 4), (x.fault.toNat, 5), (x.recheck.toNat, 6)]),
    stated (byteOf x.gain), stated (BitVec.ofInt 8 (padOffset x.mode))] ++
  statedAll (signedBytes x.net) ++
  [partly 0x37 (fields [(x.seq.code, 0), (x.inFlight.isSome.toNat, 4),
      ((x.inFlight.any (·.abandoned)).toNat, 5)]),
    changeByte x.inFlight, requestByte x.request, ownerByte x.owner, stated (byteOf x.queue.length)] ++
  queueBytes s x.queue ++
  [partly 0x3F (byteOfBits (x.taps.data.map Option.isSome))] ++
  statedAll (signedBytes (x.ownerLevel.getD 0)) ++ glideBytes x.glide ++ guardBytes x.guard

/-- READ INPUT at its input: the image is taken, and then the sender's mark is cleared (R132, R136). -/
def readInputOne (d : Slot) (k : Input) (s : State) : Applied :=
  let i := s.takeImage (inputImage s k)
  ⟨i.1.modSlot d (SlotRec.clearMark k), .done, i.2⟩

/-- READ_INPUT (R132). -/
def execReadInput (s : State) : Host.Outcome State Fault Refusal :=
  .next (s.applyKind 0x10 fun r o =>
    match o with
    | .readInput p => s.onPattern r p true (readInputOne r.slot)
    | _ => s)

/-! ## Marks and notices -/

/-- The marks image of a slot (R133, R153). -/
def marksImage (r : SlotRec) : List ImageByte :=
  statedAll (setBytes r.marks.data ++ [byteOf r.markCount, r.noticeFlags.toByte, r.enables.toByte])

/-- READ_MARKS (R133). -/
def execReadMarks (s : State) : Host.Outcome State Fault Refusal :=
  .next (s.applyKind 0x11 fun r o =>
    match o with
    | .readMarks =>
      let i := s.takeImage (marksImage (s.slot r.slot))
      i.1.gatherSingle r .done i.2
    | _ => s)

/-- CLEAR_MARKS (R136). -/
def execClearMarks (s : State) : Host.Outcome State Fault Refusal :=
  .next (s.applyKind 0x12 fun r o =>
    match o with
    | .clearMarks p =>
      s.onPattern r p false fun k t => ⟨t.modSlot r.slot (SlotRec.clearMark k), .done, []⟩
    | _ => s)

/-- Enables turned on and off; turning GLIDE_DONE off closes its pulse window (R138, R139, log entry
17). -/
def SlotRec.turnEnables (on off : NoticeSet) (r : SlotRec) : SlotRec :=
  { r with
    enables := Machine.turnEnables r.enables on off
    pulse := if off.glideDone then none else r.pulse }

/-- SET_NOTICE_ENABLES (R139). -/
def execSetNoticeEnables (s : State) : Host.Outcome State Fault Refusal :=
  .next (s.applyKind 0x13 fun r o =>
    match o with
    | .setNoticeEnables on off =>
      (s.modSlot r.slot (SlotRec.turnEnables on off)).gatherSingle r .done []
    | _ => s)

/-- The named sticky flags cleared; clearing GLIDE_DONE closes its pulse window (R138, R139). -/
def SlotRec.clearNotices (n : NoticeSet) (r : SlotRec) : SlotRec :=
  { r with
    flags := r.flags.clearNamed n
    pulse := if n.glideDone && r.flags.glideDone then none else r.pulse }

/-- CLEAR_NOTICES (R139). -/
def execClearNotices (s : State) : Host.Outcome State Fault Refusal :=
  .next (s.applyKind 0x14 fun r o =>
    match o with
    | .clearNotices n => (s.modSlot r.slot (SlotRec.clearNotices n)).gatherSingle r .done []
    | _ => s)

/-- KEEPALIVE (R132): nothing changes but the bundle's progress. -/
def execKeepalive (s : State) : Host.Outcome State Fault Refusal :=
  .next (s.applyKind 0x15 fun r o =>
    match o with
    | .keepalive => s.gatherSingle r .done []
    | _ => s)

end Sys2Proof.Machine
end

