-- ==== Sys2Proof/Machine/Taps.lean ====
section
/-! DEFINITION. OPEN TAP, CLOSE TAP, SET LEVEL, SET TAP MUTE and READ TAP (R25 to R32). -/

namespace Sys2Proof.Machine

/-! ## OPEN TAP -/

/-- The tap record made at OPEN TAP with desired level `l` at net level `n` (R25): the trim and role of
the tracking computation, the desk gate at 0 (R34), the coefficient set without a crossfade (R73). -/
def newTap (n l : Int) : Tap where
  role := (tracking n l).2
  desired := some l
  trim := (tracking n l).1
  mute := false
  gate := 0
  coef := coefficient (tracking n l).1
  inForce := (tracking n l).1
  fade := none
  waiting := []

/-- The desired level at OPEN TAP: the level given, clamped, or N (R25). -/
def openLevel (x : Inp) (level : Option (BitVec 16)) : Int :=
  match level with
  | some v => clampLevel v.toInt
  | none => x.net

/-- The level given had to be clamped. -/
def openClamped (level : Option (BitVec 16)) : Bool :=
  match level with
  | some v => clampLevel v.toInt != v.toInt
  | none => false

/-- OPEN TAP at one input (R25). -/
def openTapAt (d : Slot) (level : Option (BitVec 16)) (_ : Env) (e : Ev) : Ev :=
  if e.inp.holds d then e.answer .tapOpen
  else
    let t := newTap e.inp.net (openLevel e.inp level)
    (e.mod fun x => x.setTap d (some t)).answer
      (if openClamped level || t.role == .clamped then .clamped else .done)

/-- OPEN_TAP (R25). -/
def execOpenTap (s : State) : Host.Outcome State Fault Refusal :=
  .next (s.applyKind 0x01 fun r o =>
    match o with
    | .openTap p level => s.onPattern r p false (applyEvent (openTapAt r.slot level))
    | _ => s)

/-! ## CLOSE TAP -/

/-- CLOSE TAP at one input where the slot holds a tap (R26 steps 1 to 3), or NO_TAP. -/
def closeTapAt (d : Slot) (_ : Env) (e : Ev) : Ev :=
  if e.inp.holds d then (e.retire d).answer .done else e.answer .noTap

/-- CLOSE TAP applied: where it retires a tap it clears the slot's mark last (R26 step 5, R136). -/
def closeTapOne (d : Slot) (k : Input) (s : State) : Applied :=
  let e := s.evAt k (closeTapAt d)
  let t := s.commit k e
  ⟨if (s.inp k).holds d then t.modSlot d (SlotRec.clearMark k) else t, e.code, []⟩

/-- CLOSE_TAP (R26). -/
def execCloseTap (s : State) : Host.Outcome State Fault Refusal :=
  .next (s.applyKind 0x02 fun r o =>
    match o with
    | .closeTap p => s.onPattern r p false (closeTapOne r.slot)
    | _ => s)

/-! ## SET LEVEL -/

/-- A tap's trim and level set by SET LEVEL, and whether the result is CLAMPED: the desired level of a
non-owner tap, followed by the tracking computation (R27), or the owner's trim (R28). -/
def Tap.setLevel (n : Int) (relative : Bool) (v : Int) (t : Tap) : Tap × Bool :=
  let given := if relative then clampDelta v else clampLevel v
  match t.role, t.desired with
  | .owner, _ =>
    let want := if relative then t.trim + given else given - n
    ({ t with trim := clampTrim want }, given != v || clampTrim want != want)
  | _, some l =>
    let want := if relative then l + given else given
    let t' := Tap.track n { t with desired := some (clampLevel want) }
    (t', given != v || clampLevel want != want || t'.role == .clamped)
  | _, none => (t, given != v)

/-- SET LEVEL at one input: a trim that changed is applied at once (R27, R28, R36). -/
def setLevelAt (d : Slot) (relative : Bool) (v : BitVec 16) (_ : Env) (e : Ev) : Ev :=
  match e.inp.tap d with
  | none => e.answer .noTap
  | some t =>
    let u := t.setLevel e.inp.net relative v.toInt
    (e.mod fun x => x.setTap d (some (u.1.handNow t.trim))).answer
      (if u.2 then .clamped else .done)

/-- SET_LEVEL (R27, R28). -/
def execSetLevel (s : State) : Host.Outcome State Fault Refusal :=
  .next (s.applyKind 0x03 fun r o =>
    match o with
    | .setLevel p relative v => s.onPattern r p false (applyEvent (setLevelAt r.slot relative v))
    | _ => s)

/-! ## SET TAP MUTE -/

/-- SET TAP MUTE at one input; the desk gate turns with the mute (R31, R34). -/
def setTapMuteAt (d : Slot) (on : Bool) (_ : Env) (e : Ev) : Ev :=
  match e.inp.tap d with
  | none => e.answer .noTap
  | some t => (e.mod fun x => x.setTap d (some { t with mute := on })).answer .done

/-- SET_TAP_MUTE (R31). -/
def execSetTapMute (s : State) : Host.Outcome State Fault Refusal :=
  .next (s.applyKind 0x04 fun r o =>
    match o with
    | .setTapMute p on => s.onPattern r p false (applyEvent (setTapMuteAt r.slot on))
    | _ => s)

/-! ## READ TAP -/

def Role.code : Role → Nat
  | .owner => 0
  | .tracking => 1
  | .clamped => 2

/-- The tap image (R32, R153). -/
def tapImage (x : Inp) (k : Input) (d : Slot) (t : Tap) : List ImageByte :=
  [stated (byteOf d), stated (byteOf k),
    partly 0xC3 (fields [(t.role.code, 0), (t.mute.toNat, 6), (t.desired.isSome.toNat, 7)])] ++
  statedAll (signedBytes (t.desired.getD 0) ++ signedBytes t.trim ++ signedBytes (x.net + t.trim) ++
    [byteOf ((x.claimPosition d).getD 0)])

/-- READ TAP at its input (R32). It clears no mark. -/
def readTapOne (d : Slot) (k : Input) (s : State) : Applied :=
  match (s.inp k).tap d with
  | none => ⟨s, .noTap, []⟩
  | some t =>
    let i := s.takeImage (tapImage (s.inp k) k d t)
    ⟨i.1, .done, i.2⟩

/-- READ_TAP (R32). -/
def execReadTap (s : State) : Host.Outcome State Fault Refusal :=
  .next (s.applyKind 0x05 fun r o =>
    match o with
    | .readTap p => s.onPattern r p true (readTapOne r.slot)
    | _ => s)

end Sys2Proof.Machine
end

