-- ==== Sys2Proof/Machine/Dispatch.lean ====
section
/-! DEFINITION. The meaning of each command, one arm per row of spec/opcode_table.json. -/

namespace Sys2Proof.Machine

def exec (i : Instr) (s : State) : Host.Outcome State Fault Refusal :=
  match i with
  | .writeBundle d bytes stray => Sys2Proof.Machine.execWriteBundle d bytes stray s
  | .readResponse d n => Sys2Proof.Machine.execReadResponse d n s
  | .readPortStatus n => Sys2Proof.Machine.execReadPortStatus n s
  | .setQueueThreshold d bytes => Sys2Proof.Machine.execSetQueueThreshold d bytes s
  | .ignoredTransaction cmd n => Sys2Proof.Machine.execIgnoredTransaction cmd n s
  | .bundleTake => Sys2Proof.Machine.execBundleTake s
  | .bundleEnd => Sys2Proof.Machine.execBundleEnd s
  | .openTap => Sys2Proof.Machine.execOpenTap s
  | .closeTap => Sys2Proof.Machine.execCloseTap s
  | .setLevel => Sys2Proof.Machine.execSetLevel s
  | .setTapMute => Sys2Proof.Machine.execSetTapMute s
  | .readTap => Sys2Proof.Machine.execReadTap s
  | .claim => Sys2Proof.Machine.execClaim s
  | .release => Sys2Proof.Machine.execRelease s
  | .setGain => Sys2Proof.Machine.execSetGain s
  | .stopGlide => Sys2Proof.Machine.execStopGlide s
  | .setPhantom => Sys2Proof.Machine.execSetPhantom s
  | .setMode => Sys2Proof.Machine.execSetMode s
  | .recheckFrontEnd => Sys2Proof.Machine.execRecheckFrontEnd s
  | .readInput => Sys2Proof.Machine.execReadInput s
  | .readMarks => Sys2Proof.Machine.execReadMarks s
  | .clearMarks => Sys2Proof.Machine.execClearMarks s
  | .setNoticeEnables => Sys2Proof.Machine.execSetNoticeEnables s
  | .clearNotices => Sys2Proof.Machine.execClearNotices s
  | .keepalive => Sys2Proof.Machine.execKeepalive s
  | .configureInput => Sys2Proof.Machine.execConfigureInput s
  | .configureDesk => Sys2Proof.Machine.execConfigureDesk s
  | .openDesk => Sys2Proof.Machine.execOpenDesk s
  | .closeDesk => Sys2Proof.Machine.execCloseDesk s
  | .readDesk => Sys2Proof.Machine.execReadDesk s
  | .setTiming => Sys2Proof.Machine.execSetTiming s
  | .readSystemStatus => Sys2Proof.Machine.execReadSystemStatus s
  | .clearSupply => Sys2Proof.Machine.execClearSupply s
  | .controlReset => Sys2Proof.Machine.execControlReset s
  | .powerOnReset => Sys2Proof.Machine.execPowerOnReset s
  | .crstAssert => Sys2Proof.Machine.execCrstAssert s
  | .psagAssert => Sys2Proof.Machine.execPsagAssert s
  | .psagDeassert => Sys2Proof.Machine.execPsagDeassert s
  | .frontEndAck k => Sys2Proof.Machine.execFrontEndAck k s
  | .writeFail k => Sys2Proof.Machine.execWriteFail k s
  | .muteRampEnd k => Sys2Proof.Machine.execMuteRampEnd k s
  | .settleTimerExpiry k => Sys2Proof.Machine.execSettleTimerExpiry k s
  | .unmuteRampEnd k => Sys2Proof.Machine.execUnmuteRampEnd k s
  | .stepTimerExpiry k => Sys2Proof.Machine.execStepTimerExpiry k s
  | .clipIndication k => Sys2Proof.Machine.execClipIndication k s
  | .windowExpiry k => Sys2Proof.Machine.execWindowExpiry k s
  | .presenceTimerExpiry d => Sys2Proof.Machine.execPresenceTimerExpiry d s
  | .glideDonePulseEnd d => Sys2Proof.Machine.execGlideDonePulseEnd d s
  | .alignedChangeRelease d k n => Sys2Proof.Machine.execAlignedChangeRelease d k n s
  | .converterSample k sample => Sys2Proof.Machine.execConverterSample k sample s
  | .unknownOperationKind => Sys2Proof.Machine.execUnknownOperationKind s

end Sys2Proof.Machine
end

