-- ==== Sys2Proof/Machine/Time.lean ====
section
/-! DEFINITION. The passing of one millisecond, which is what an idle step does (DESIGN CHOICE, log
entry 9): every running timer loses a millisecond. A timer at 0 is due, and its expiry is a command (log
entry 10). -/

namespace Sys2Proof.Machine

/-- A running timer one millisecond later. -/
def runDown (t : Option Nat) : Option Nat := t.map (· - 1)

/-- The timers of an input: the timeout of the outstanding write (R7), the settle timer (R16), the step
timer (R77) and the guard's window (R98). -/
def Inp.tick (x : Inp) : Inp :=
  { x with
    settleLeft := runDown x.settleLeft
    outstanding := x.outstanding.map fun o => { o with left := o.left - 1 }
    glide := x.glide.map fun g => { g with timer := runDown g.timer }
    guard := { x.guard with timer := runDown x.guard.timer } }

/-- The timers of a slot: its presence timer (R113) and its pulse window (R138). -/
def SlotRec.tick (r : SlotRec) : SlotRec :=
  { r with timer := runDown r.timer, pulse := runDown r.pulse }

def State.tick (s : State) : State :=
  { s with inputs := s.inputs.map Inp.tick, slots := s.slots.map SlotRec.tick }

end Sys2Proof.Machine
end

