-- ==== Sys2Proof/Safety.lean ====
section
/-! DEFINITION. The laws that the spec states of the whole part, as predicates on a state; the
statements say that every step keeps them. And the words in which frames are stated. -/

namespace Sys2Proof.Machine

/-! ## Gains (R2, R71, R77) -/

/-- The gain a write carries lies in the range of the mode it is sent under (R2). -/
def Write.fits (m : Mode) : Write → Bool
  | .gain g => g ≤ maxGain m
  | .mode m' g => g ≤ maxGain m'
  | .phantom _ => true

/-- G, the gain of the outstanding write, a glide's target and its staged target lie in the mode's range
(R2, R71, R77). -/
def Inp.GainsInRange (x : Inp) : Prop :=
  x.gain ≤ maxGain x.mode ∧
  (∀ o ∈ x.outstanding, o.write.fits x.mode = true) ∧
  (∀ g ∈ x.glide, g.target ≤ maxGain x.mode ∧ ∀ q ∈ g.staged, q.target ≤ maxGain x.mode)

def State.GainsInRange (s : State) : Prop := ∀ k, (s.inp k).GainsInRange

/-! ## Taps (R23, R64, R65) -/

/-- Role, desired level and trim agree at net level `n`: OWNER alone has no desired level, TRACKING has
N + T equal to it, and CLAMPED has it out of reach at one end of the trim range. -/
def Tap.roleAgrees (n : Int) (t : Tap) : Bool :=
  match t.role, t.desired with
  | .owner, none => true
  | .tracking, some l => l == n + t.trim
  | .clamped, some l => (t.trim == -160 && l < n - 160) || (t.trim == 80 && n + 80 < l)
  | _, _ => false

/-- The laws of a tap at net level `n` (R23, R64, R65). -/
def Tap.Lawful (n : Int) (t : Tap) : Prop :=
  -160 ≤ t.trim ∧ t.trim ≤ 80 ∧ (∀ l ∈ t.desired, -240 ≤ l ∧ l ≤ 320) ∧ t.roleAgrees n = true

def State.TapsLawful (s : State) : Prop :=
  ∀ k d, ∀ t ∈ (s.inp k).tap d, t.Lawful (s.inp k).net

/-! ## Ownership (R41, R42, R49) -/

/-- The role of a slot's tap is OWNER. -/
def Inp.ownsByRole (x : Inp) (d : Slot) : Bool := (x.tap d).any fun t => t.role == .owner

/-- The laws of owner and claim queue of an input (R41, R42), that exactly the owner's tap has role OWNER
(R49), and that an orphaned input holds no glide of source OWNER and no staged retarget (R54, R90). -/
def Inp.OwnershipLawful (slots : Table SlotRec 6) (x : Inp) : Prop :=
  (∀ d, x.ownsByRole d = true ↔ x.owner = some d) ∧
  (∀ d ∈ x.owner, (slots.get d).state = .opened) ∧
  (x.owner = none → x.queue = []) ∧
  x.queue.Nodup ∧
  (∀ d ∈ x.queue, x.owner ≠ some d ∧ x.holds d = true ∧ (slots.get d).state = .opened) ∧
  x.queue.Pairwise (fun c d => (slots.get d).rank ≤ (slots.get c).rank) ∧
  (∀ g ∈ x.glide, g.source = .owner ∨ g.staged.isSome = true → x.owner.isSome = true)

def State.OwnershipLawful (s : State) : Prop := ∀ k, (s.inp k).OwnershipLawful s.slots

/-! ## Slots (R105, R106, R111, R148) -/

/-- The laws of a slot record: slot 0 is fixed (R106); for slots 1..5 the ranges of R105 and a timer that
runs exactly while OPEN; a CLOSED slot holds no mark, flag, bundle or response; a pulse window is open only
while the GLIDE_DONE flag is set (R138); and the queue threshold is 0..7 (R148). -/
def SlotRec.Lawful (d : Slot) (r : SlotRec) : Prop :=
  (d = 0 → r.state = .opened ∧ r.rank = 8 ∧ r.perms = allPerms ∧ r.timer = none) ∧
  (d ≠ 0 → 1 ≤ r.rank ∧ r.rank ≤ 7 ∧ 1 ≤ r.timeout ∧ r.timeout ≤ 60 ∧
    (r.timer.isSome = true ↔ r.state = .opened)) ∧
  (r.state = .closed → r.requests = [] ∧ r.responses = [] ∧ r.markCount = 0 ∧
    r.flags = .clear ∧ r.pulse = none) ∧
  (r.pulse.isSome = true → r.flags.glideDone = true) ∧
  r.threshold ≤ 7

/-- The laws of the slots; a CLOSED slot holds no tap and has no bundle in execution. -/
def State.SlotsLawful (s : State) : Prop :=
  (∀ d, (s.slot d).Lawful d) ∧
  (∀ k d, (s.inp k).holds d = true → (s.slot d).state ≠ .closed) ∧
  (∀ r ∈ s.executor.run, (s.slot r.slot).state ≠ .closed)

/-! ## Queues of the port, bundles and results (R126, R144 to R146, R152) -/

/-- At most 8 bundles and 4 responses in each slot's queues, and room for the response of the bundle in
execution (R120, R122, R145). -/
def State.QueuesBounded (s : State) : Prop :=
  (∀ d, (s.slot d).requests.length ≤ 8 ∧ (s.slot d).responses.length ≤ 4) ∧
  (∀ r ∈ s.executor.run, (s.slot r.slot).responses.length ≤ 3)

/-- The matched count is the sum of the applied and the refused count, a first refused input comes only
with a refusal (R126), and no image is longer than the input image (R153). -/
def OpResult.Lawful (x : OpResult) : Prop :=
  x.matched = x.applied + x.refused ∧ x.matched ≤ 64 ∧ x.image.length ≤ 32 ∧
  (x.first.isSome = true → 0 < x.refused)

def Response.Lawful (x : Response) : Prop := x.results.length ≤ 16 ∧ ∀ q ∈ x.results, q.Lawful

/-- The bundle in execution holds one result for each operation applied (R121, R126). -/
def Run.Lawful (r : Run) : Prop :=
  1 ≤ r.ops.length ∧ r.ops.length ≤ 16 ∧ r.pos ≤ r.ops.length ∧ r.results.length = r.pos ∧
  (∀ x ∈ r.results, x.Lawful) ∧
  (∀ q ∈ r.progress, r.pos < r.ops.length ∧ q.rest ≠ [] ∧ q.done.length + q.rest.length ≤ 64)

/-- Every bundle queued is one a frame can carry, and every response and the bundle in execution are
lawful. -/
def State.BundlesLawful (s : State) : Prop :=
  (∀ d, (∀ b ∈ (s.slot d).requests, b.wf = true) ∧ ∀ x ∈ (s.slot d).responses, x.Lawful) ∧
  (∀ r ∈ s.executor.run, r.Lawful)

/-! ## Guard and system (R95, R97, R98, R119) -/

/-- The settings in the ranges of R95; the count below the threshold, and 0 exactly while the window timer
is stopped (R97 to R99). -/
def Guard.Lawful (g : Guard) : Prop :=
  1 ≤ g.threshold ∧ g.threshold ≤ 15 ∧ 1 ≤ g.window ∧ g.window ≤ 16 ∧
  1 ≤ g.backStep ∧ g.backStep ≤ 6 ∧ g.count < g.threshold ∧ (g.timer = none ↔ g.count = 0) ∧
  g.total ≤ 60

def State.GuardsLawful (s : State) : Prop := ∀ k, (s.inp k).guard.Lawful

/-- The timings in the ranges of R129, the pointer at a slot 1..5, the count at most 255, and a control
reset requested only while a bundle is applied (R116, R119, R122). -/
def State.SystemLawful (s : State) : Prop :=
  1 ≤ s.sys.settle ∧ s.sys.settle ≤ 30 ∧ 5 ≤ s.sys.discharge ∧ s.sys.discharge ≤ 50 ∧
  s.sys.align ≤ 63 ∧ s.executor.pointer ≠ 0 ∧ s.executor.resetCount ≤ 255 ∧
  (s.executor.resetRequested = true → s.executor.run.isSome = true)

/-! ## Sequencer and command path (R5, R14, R17) -/

def Issuer.isRecheck : Issuer → Bool
  | .recheck _ => true
  | _ => false

def Issuer.isStep : Issuer → Bool
  | .step _ => true
  | _ => false

/-- The outstanding write belongs to what `p` says. -/
def Inp.issuing (x : Inp) (p : Issuer → Bool) : Bool := x.outstanding.any fun o => p o.issuer

/-- The glide's step is in that state. -/
def Inp.stepIs (x : Inp) (st : StepState) : Bool := x.glide.any fun g => g.step == st

/-- A change is in flight exactly while the sequencer is not IDLE, a request pends only then, the settle
timer runs exactly in SETTLING, and HALTED comes only with FAULT (R10, R14, R16, R17). -/
def Inp.SequencerLawful (x : Inp) : Prop :=
  (x.inFlight.isSome = true ↔ x.seq ≠ .idle) ∧
  (x.request.isSome = true → x.seq ≠ .idle) ∧
  (x.settleLeft.isSome = true ↔ x.seq = .settling) ∧
  (x.seq = .halted → x.fault = true)

/-- The waiting list holds at most one group of each source and is empty while nothing is outstanding; the
recheck field, the SWITCHING state and a glide's step are what the path is doing; a step is ready only
in IDLE, and an input in FAULT holds no glide (R5, R15, R20, R77, R87, R91). -/
def Inp.PathLawful (x : Inp) : Prop :=
  x.waiting.Nodup ∧
  (x.outstanding = none → x.waiting = []) ∧
  (x.recheck = true ↔ .recheck ∈ x.waiting ∨ x.issuing Issuer.isRecheck = true) ∧
  (x.recheck = true → ¬ (.recheck ∈ x.waiting ∧ x.issuing Issuer.isRecheck = true)) ∧
  (x.seq = .switching ↔ .switching ∈ x.waiting ∨ x.issuing (· == .switching) = true) ∧
  ¬ (.switching ∈ x.waiting ∧ x.issuing (· == .switching) = true) ∧
  (.step ∈ x.waiting ↔ x.stepIs .ready = true) ∧
  (x.stepIs .outstanding = true → x.issuing Issuer.isStep = true) ∧
  (.step ∈ x.waiting → x.seq = .idle) ∧
  .startUp ∉ x.waiting ∧
  (x.fault = true → x.glide = none)

/-- A glide's step timer runs only with no step in flight; a WAITING glide is the owner's and has no step,
no timer and no staged retarget (R77, R79). -/
def Inp.GlideLawful (x : Inp) : Prop :=
  ∀ g ∈ x.glide, (g.timer.isSome = true → g.step = .absent) ∧
    (g.state = .waiting → g.source = .owner ∧ g.step = .absent ∧ g.timer = none ∧ g.staged = none)

def Inp.FrontEndLawful (x : Inp) : Prop := x.SequencerLawful ∧ x.PathLawful ∧ x.GlideLawful

def State.FrontEndLawful (s : State) : Prop := ∀ k, (s.inp k).FrontEndLawful

/-! ## Phantom power (R4) -/

/-- The modes in which phantom power may be ON (R4). -/
def carriesPhantom (m : Mode) : Bool := m == .mic || m == .line

/-- Phantom power is ON only in MIC or LINE without phantom lock (R4). -/
def Inp.PhantomLaw (x : Inp) : Prop :=
  x.phantom = true → carriesPhantom x.mode = true ∧ x.lock = false

/-- What keeps R4: a phantom-ON change in flight stands at an input that may carry it, a mode change in
flight leaves it so, and the outstanding write brings nothing else. -/
def Inp.phantomSafe (x : Inp) : Bool :=
  (!x.phantom || (carriesPhantom x.mode && !x.lock)) &&
  (match x.inFlight with
    | some ⟨.phantom true, _, _⟩ => carriesPhantom x.mode && !x.lock
    | some ⟨.mode m, _, _⟩ => !x.phantom || carriesPhantom m
    | _ => true) &&
  (match x.outstanding with
    | some ⟨.phantom true, i, _⟩ =>
      x.phantom ||
        (((i == .switching) || (i == .recheck 1 && x.seq == .halted)) &&
          (x.inFlight.any fun c => c.value == .phantom true))
    | some ⟨.mode m g, .startUp _, _⟩ => m == .off && g == 0 && x.mode == .off
    | some ⟨.mode m _, .switching, _⟩ => x.inFlight.any fun c => c.value == .mode m
    | some ⟨.mode m _, .recheck n, _⟩ => n == 0 &&
      (if x.seq = .halted then
        m == x.mode || (x.inFlight.any fun c => c.value == .mode m)
      else m == x.mode)
    | some ⟨.mode _ _, .step _, _⟩ => false
    | _ => true)

def State.PhantomSafe (s : State) : Prop := ∀ k, (s.inp k).phantomSafe = true

/-! ## The feed mixer (R73, R74, R76) -/

/-- A coefficient between the ends of the table (R72, R73). -/
def coefInTable (a : Int) : Prop := 2684355 ≤ a ∧ a ≤ 2684354560

/-- What the feed mixer holds for a tap lies in range (R36, R73, R74). -/
def Tap.MixLawful (rate96 : Bool) (t : Tap) : Prop :=
  -160 ≤ t.trim ∧ t.trim ≤ 80 ∧ -160 ≤ t.inForce ∧ t.inForce ≤ 80 ∧
  (∀ c ∈ t.waiting, -160 ≤ c.trim ∧ c.trim ≤ 80) ∧
  t.gate ≤ gateSamples rate96 ∧ coefInTable t.coef ∧
  (∀ f ∈ t.fade, coefInTable f.start ∧ f.done < fadeSamples rate96)

/-- Every feed sample lies within the bound of R76, and what forms it in range; the sequence gate is full in
IDLE and at 0 in SWITCHING (R35, R74). -/
def State.FeedLawful (s : State) : Prop :=
  ∀ k, (s.inp k).seqGate ≤ gateSamples s.sys.rate96 ∧
    ((s.inp k).seq = .idle → (s.inp k).seqGate = gateSamples s.sys.rate96) ∧
    ((s.inp k).seq = .switching → (s.inp k).seqGate = 0) ∧
    (∀ d, -1342177280 ≤ (s.inp k).feed.get d ∧ (s.inp k).feed.get d ≤ 1342177280) ∧
    (∀ d, ∀ t ∈ (s.inp k).tap d, t.MixLawful s.sys.rate96)

/-! ## Frames -/

/-- Nothing of any input but `k` changes. -/
def otherInputsKept (k : Input) (s t : State) : Prop := ∀ j, j ≠ k → t.inp j = s.inp j

/-- No input changes. -/
def inputsKept (s t : State) : Prop := t.inputs = s.inputs

/-- A slot record but for the notice unit's marks, sticky flags and pulse window. -/
def SlotRec.sameButNotices (r q : SlotRec) : Prop :=
  q = { r with marks := q.marks, flags := q.flags, pulse := q.pulse }

/-- No slot changes but in its marks, sticky flags and pulse window. -/
def slotsKeptButNotices (s t : State) : Prop := ∀ d, (s.slot d).sameButNotices (t.slot d)

/-- No slot but `d` changes. -/
def otherSlotsKept (d : Slot) (s t : State) : Prop := ∀ c, c ≠ d → t.slot c = s.slot c

/-- Nothing outside the inputs and the slots changes: executor, system, port, free values, queue. -/
def restKept (s t : State) : Prop :=
  t.executor = s.executor ∧ t.sys = s.sys ∧ t.port = s.port ∧ t.freeCount = s.freeCount ∧
  t.pending = s.pending

/-- The frame of an event at one input: the other inputs, and everything outside the inputs but for marks,
sticky flags and pulse windows, are unchanged. -/
def eventFrame (k : Input) (s t : State) : Prop :=
  otherInputsKept k s t ∧ slotsKeptButNotices s t ∧ restKept s t

/-- The executor but for the bundle in execution, the system, the port and the queue are unchanged. -/
def restKeptButRun (s t : State) : Prop :=
  t.executor = { s.executor with run := t.executor.run } ∧ t.sys = s.sys ∧ t.port = s.port ∧
  t.pending = s.pending

/-! ## The words of the statements about commands -/

/-- The sticky flag stands. -/
def StickyFlags.has (f : StickyFlags) : Sticky → Bool
  | .ownership => f.ownership
  | .glideDone => f.glideDone
  | .frontend => f.frontend
  | .overload => f.overload
  | .overrun => f.overrun
  | .supply => f.supply

/-- The operation kind that a command applies (R151); the others apply none. -/
def commandKind : Instr → Option Byte
  | .openTap => some 0x01
  | .closeTap => some 0x02
  | .setLevel => some 0x03
  | .setTapMute => some 0x04
  | .readTap => some 0x05
  | .claim => some 0x06
  | .release => some 0x07
  | .setGain => some 0x08
  | .stopGlide => some 0x09
  | .setPhantom => some 0x0A
  | .setMode => some 0x0B
  | .recheckFrontEnd => some 0x0C
  | .readInput => some 0x10
  | .readMarks => some 0x11
  | .clearMarks => some 0x12
  | .setNoticeEnables => some 0x13
  | .clearNotices => some 0x14
  | .keepalive => some 0x15
  | .configureInput => some 0x20
  | .configureDesk => some 0x21
  | .openDesk => some 0x22
  | .closeDesk => some 0x23
  | .readDesk => some 0x24
  | .setTiming => some 0x25
  | .readSystemStatus => some 0x26
  | .clearSupply => some 0x27
  | .controlReset => some 0x28
  | _ => none

/-- The pattern an operation carries, and whether it needs a mask of 0 (R124). -/
def opPattern : Op → Option (Pattern × Bool)
  | .openTap p _ | .closeTap p | .setLevel p _ _ | .setTapMute p _ | .claim p _ | .release p
  | .setGain p _ _ _ | .stopGlide p | .setPhantom p _ | .setMode p _ | .recheckFrontEnd p
  | .clearMarks p | .configureInput p _ => some (p, false)
  | .readTap p | .readInput p => some (p, true)
  | _ => none

/-- The next operation of the bundle in execution `r` is `o`, and `r.slot` may send it (R119, R125). -/
def State.sends (s : State) (r : Run) (o : Op) : Prop :=
  ∃ c, s.nextRecord = some (r, c) ∧ decodeOp c = some o ∧ (o.systemOnly = true → r.slot = 0)

/-- The next application of an operation with pattern `p` is the one to input `k`, with `rest` to follow and
the results `past` behind it: it goes on with an expansion already made, or it is the first one, whose
checks pass (R121, R123, R124). -/
def State.nextAt (s : State) (r : Run) (p : Pattern) (exact : Bool) (k : Input) (rest : List Input)
    (past : List (Input × ResultCode)) : Prop :=
  r.progress = some ⟨k :: rest, past⟩ ∨
  (r.progress = none ∧ past = [] ∧ s.checkPattern r.slot p exact = .ok (k :: rest))

/-- The state with result `c` gathered for input `k`: the operation goes on with the next input, or after
the last one its result, with `image`, joins the results and the next operation follows (R121, R126). -/
def State.answered (s : State) (r : Run) (k : Input) (rest : List Input)
    (past : List (Input × ResultCode)) (c : ResultCode) (image : List Byte) : State :=
  match rest with
  | [] => s.gather r (OpResult.summary (past ++ [(k, c)]) image)
  | _ => s.setRun (some { r with progress := some ⟨rest, past ++ [(k, c)]⟩ })

/-- The state after an event that leaves input `k` with record `x` and raises `out` by name: beside them, the
marks of the change are set (R134, R135). -/
def State.after (s : State) (k : Input) (x : Inp) (out : List Signal) : State :=
  s.commit k ⟨x, out, .done⟩

/-- The state after such an event when the command path of the input then moves on (R5). -/
def State.afterPath (s : State) (k : Input) (x : Inp) (out : List Signal) : State :=
  s.commit k (Ev.pump s.env ⟨x, out, .done⟩)

/-- GLIDE_DONE at the end of a glide of that source on input `x`: for the owner if it has one, and for a
guard glide for every observer (R85). -/
def glideDoneFor (v : Env) (x : Inp) (source : GlideSource) : List Signal :=
  x.owner.toList.map (.raise .glideDone) ++
    (if source = .guard then v.observers.map (.raise .glideDone) else [])

/-- The glide record dropped, with a ready step withdrawn from the path (R85). -/
def Inp.withoutGlide (x : Inp) : Inp :=
  { x with glide := none, waiting := x.waiting.filter (· != .step) }

/-- The input after a hand-over to `incoming` (R49). -/
def Inp.handedOver (incoming : Option Slot) (x : Inp) : Inp :=
  ((x.captureOwner).giveTo incoming).handOverGlide

/-- OWNERSHIP at a hand-over, for the outgoing and the incoming owner (R53). -/
def ownershipFor (x : Inp) (incoming : Option Slot) : List Signal :=
  (x.owner.toList ++ incoming.toList).map (.raise .ownership)

/-- A tap at an acknowledgement that takes N from `old` to `n`, of a guard step or not: a non-owner tap is
computed where N changed (R29, R64), the owner's trim is raised by 4 at a guard step (R68), and a trim that
changed is handed over as an aligned change (R36). -/
def ackTap (align : Nat) (old n : Int) (guardStep : Bool) (t : Tap) : Tap :=
  let trim := match t.role, t.desired with
    | .owner, _ => if guardStep then max (-160) (min 80 (t.trim + 4)) else t.trim
    | _, some l => if n = old then t.trim else max (-160) (min 80 (l - n))
    | _, none => t.trim
  let role := match t.role, t.desired with
    | .owner, _ => .owner
    | _, some l => if n = old then t.role else if trim = l - n then .tracking else .clamped
    | _, none => t.role
  { t with
    trim := trim
    role := role
    waiting := if trim = t.trim then t.waiting else t.waiting ++ [⟨trim, align⟩] }

/-- The input with the values of an acknowledged write recorded (R6), its taps computed, and no write
outstanding. -/
def Inp.acked (align : Nat) (w : Write) (guardStep : Bool) (x : Inp) : Inp :=
  let y := x.record w
  { y with
    taps := y.taps.map (Option.map (ackTap align x.net y.net guardStep))
    outstanding := none }

/-- The input at an acknowledgement that brought it a mode other than `old`: the glide's targets clamped to the
mode's highest gain, and a STEPPING glide with no step outstanding ended where its target is then G; with what
that raises (R71, R89). -/
def Inp.modeClamped (v : Env) (old : Mode) (x : Inp) : Inp × List Signal :=
  match x.glide with
  | none => (x, [])
  | some g =>
    if x.mode = old then (x, [])
    else
      let g' := { g with
        target := min (maxGain x.mode) g.target
        staged := g.staged.map fun q => { q with target := min (maxGain x.mode) q.target } }
      if g.state = .stepping ∧ g.step ≠ .outstanding ∧ g'.target = x.gain then
        (x.withoutGlide, glideDoneFor v x g.source)
      else ({ x with glide := some g' }, [])

/-- The input as an accepted change starts its sequence: MUTING with the change in flight, and a ready step
withdrawn (R14, R87). -/
def Inp.sequenceStarted (value : FrontValue) (d : Slot) (x : Inp) : Inp :=
  { x with
    seq := .muting
    inFlight := some ⟨value, d, false⟩
    waiting := x.waiting.filter (· != .step)
    glide := x.glide.map fun g => if g.step = .ready then { g with step := .absent } else g }

/-- The input with its sequencer in UNMUTING and the sequence gate at 0 (R16, R35). -/
def Inp.unmutingFrom (x : Inp) : Inp := { x with seq := .unmuting, settleLeft := none, seqGate := 0 }

/-- The input with one step of its glide `g` ready, its step timer stopped (R83). -/
def Inp.stepReady (g : Glide) (x : Inp) : Inp :=
  { x with glide := some { g with step := .ready, timer := none }, waiting := x.waiting ++ [.step] }

/-- Byte `i` is there and its bits under `mask` read `value`. -/
def shows (bytes : List Byte) (i : Nat) (mask value : Byte) : Prop :=
  ∃ b, bytes[i]? = some b ∧ b &&& mask = value

end Sys2Proof.Machine
end

