-- ==== Sys2Proof/Certificates/Slice0/Obligations.lean ====
section
/-! DEFINITION. The statements for the provers, from the numbered rules of spec/. A statement about an
operation of a bundle speaks of its next application, in the words of Sys2Proof/Safety.lean: `sends` (the
bundle in execution has that operation next), `nextAt` (the input it is applied to next), `after` (the
event's effects with the marks they set) and `answered` (the result gathered). -/

open Sys2Proof Sys2Proof.Machine

/-! ## The machine -/

/-- A step carries out the command at the front of the queue on the state with the rest of the queue. The queue
is the model's own (log entry 22), which is how it takes one event after another, as R121 has events fall
between the applications of a bundle. -/
def Obligations.StepRunsFrontCommand : Prop :=
  ∀ (s : State) (c : Instr) (rest : List Instr), s.pending = c :: rest →
    step s = exec c { s with pending := rest }

/-- On an empty queue one millisecond passes: every running timer loses one, and nothing else changes
(DESIGN CHOICE, log entry 9). -/
def Obligations.IdleStepIsOneMillisecond : Prop :=
  ∀ s : State, s.pending = [] → ∃ t, step s = .next t ∧
    (∀ k, t.inp k = { s.inp k with
      settleLeft := (s.inp k).settleLeft.map (· - 1)
      outstanding := (s.inp k).outstanding.map fun o => { o with left := o.left - 1 }
      glide := (s.inp k).glide.map fun g => { g with timer := g.timer.map (· - 1) }
      guard := { (s.inp k).guard with timer := (s.inp k).guard.timer.map (· - 1) } }) ∧
    (∀ d, t.slot d = { s.slot d with
      timer := (s.slot d).timer.map (· - 1)
      pulse := (s.slot d).pulse.map (· - 1) }) ∧
    restKept s t

/-- Every command is answered with a next state, whose queue is the state's: also a command that cannot be the
event it names, which does nothing (log entry 8), and POWER_ON_RESET, which keeps the model's own queue
(log entries 18 and 22). -/
def Obligations.EveryCommandAnswersNext : Prop :=
  ∀ (c : Instr) (s : State), ∃ t, exec c s = .next t ∧ t.pending = s.pending

/-! ## Reset -/

/-- What power-on reset leaves in every record, for the levels that PSAG and the strap have (log entries 1
to 4 for those, for sdo and for the counter; 18 for what is kept). A write that was outstanding is forgotten, and
unanswered from then on (R8, R94; log entry 21). PSAG asserted when the reset ends counts as an assertion: the
supply flag is set and SUPPLY is raised for the system slot (R22). Every other notice flag is clear, and the flag
and SUPPLY too where PSAG is not asserted (R22, R142). -/
def Obligations.PowerOnResetValues : Prop :=
  (∀ s : State, let t := State.powerOn s.sys.psag s.sys.rate96 s.freeCount s.pending
    exec .powerOnReset s = .next { t with inputs := .ofFn fun k => { t.inp k with
      unanswered := (s.inp k).unanswered + if (s.inp k).outstanding = none then 0 else 1 } }) ∧
  State.reset = State.powerOn false false 0 [] ∧
  ∀ (psag rate96 : Bool) (n : Nat) (q : List Instr),
    let t := State.powerOn psag rate96 n q
    (∀ k, let x := t.inp k
      x.mode = .off ∧ x.gain = 0 ∧ x.net = 0 ∧ x.phantom = false ∧ x.lock = false ∧
      x.isProtected = false ∧ x.fault = false ∧ x.recheck = false ∧
      x.seq = .idle ∧ x.inFlight = none ∧ x.request = none ∧ x.settleLeft = none ∧
      x.outstanding = some ⟨.mode .off 0, .startUp 0, 4⟩ ∧ x.waiting = [] ∧ x.unanswered = 0 ∧
      x.owner = none ∧ x.queue = [] ∧ x.glide = none ∧
      x.guard = ⟨.off, 4, 4, 3, 0, none, 0, .none⟩ ∧
      (∀ d, x.tap d = none ∧ x.feed.get d = 0) ∧
      x.seqGate = if rate96 then 960 else 480) ∧
    (∀ d, let r := t.slot d
      r.requests = [] ∧ r.responses = [] ∧ r.threshold = 2 ∧ r.overrun = false ∧ r.timer = none ∧
      r.pulse = none ∧ (∀ k, r.marks.get k = false) ∧
      r.enables = ⟨true, false, false, false, false, false, false, false⟩ ∧
      (∀ m, r.flags.has m = (psag && (d == 0) && (m == .supply))) ∧
      (d = 0 → r.state = .opened ∧ r.rank = 8 ∧ r.perms = ⟨true, true, true, true⟩) ∧
      (d ≠ 0 → r.state = .closed ∧ r.rank = 1 ∧ r.perms = ⟨true, false, false, false⟩ ∧
        r.timeout = 5)) ∧
    t.executor = ⟨none, 5, false, 0⟩ ∧ t.sys = ⟨8, 15, 24, psag, psag, rate96⟩ ∧
    t.port = ⟨.none, 0, false, []⟩ ∧ t.freeCount = n ∧ t.pending = q

/-! ## The control port -/

/-- WRITE BUNDLE: the judgements in their order, the first that applies giving the outcome, and the slot's
change at ACCEPTED and FULL (R144, R113, R115). -/
def Obligations.WriteBundleJudged : Prop :=
  ∀ (s : State) (d : Slot) (bytes : List Byte) (stray : Fin 8),
    ∃ t, exec (.writeBundle d bytes stray) s = .next t ∧
      inputsKept s t ∧ otherSlotsKept d s t ∧ t.executor = s.executor ∧ t.sys = s.sys ∧
      t.freeCount = s.freeCount ∧ t.pending = s.pending ∧
      t.port.sdo = s.summaryByte :: List.replicate bytes.length 0 ∧
      t.port.lastSlot = BitVec.ofNat 3 d ∧
      match parseBundle bytes stray with
      | .error _ => t.slot d = s.slot d ∧ t.port.lastOutcome = .malformed ∧ t.port.error = true
      | .ok b => t.port.error = s.port.error ∧
        if (s.slot d).state = .closed then t.slot d = s.slot d ∧ t.port.lastOutcome = .closed
        else if 8 ≤ (s.slot d).requests.length then
          t.slot d = { s.slot d with
            overrun := true, flags := { (s.slot d).flags with overrun := true } } ∧
          t.port.lastOutcome = .full
        else
          t.slot d = { s.slot d with
            requests := (s.slot d).requests ++ [b]
            state := if d = 0 then (s.slot d).state else .opened
            timer := if d = 0 then (s.slot d).timer else some (1000 * (s.slot d).timeout) } ∧
          t.port.lastOutcome = .accepted

/-- A frame is accepted as bundle `b` exactly when it is whole bytes and they are the bytes of `b`, laid out
as R151 gives, `b` having 1 to 16 operations of at most 15 parameter bytes each (R144). -/
def Obligations.FrameIsBundleLayout : Prop :=
  ∀ (bytes : List Byte) (stray : Nat) (b : Bundle),
    parseBundle bytes stray = .ok b ↔ stray = 0 ∧ b.wf = true ∧ bytes = b.toBytes

/-- Every operation that a record can carry is read back from its record, whose parameters fit; and a record
that carries an operation has that operation's kind and parameter length. A kind the part does not know, a mode
above 3, a phantom or mute value above 1, a policy above 2 that is given, and a notice named both on and off
carry none (R125, R151). -/
def Obligations.OperationRecordRoundTrip : Prop :=
  (∀ o : Op, o.wf = true → decodeOp (encodeOp o) = some o ∧ (encodeOp o).params.length ≤ 15) ∧
  (∀ (c : OpRec) (o : Op), decodeOp c = some o →
    o.wf = true ∧ c.kind = (encodeOp o).kind ∧ c.params.length = (encodeOp o).params.length) ∧
  (∀ c : OpRec, kindKnown c.kind = false → decodeOp c = none) ∧
  (∀ b m v : Byte, (3 < v.toNat → decodeOp ⟨0x0B, [b, m, v]⟩ = none) ∧
    (1 < v.toNat → decodeOp ⟨0x0A, [b, m, v]⟩ = none ∧ decodeOp ⟨0x04, [b, m, v]⟩ = none)) ∧
  (∀ b m given bits policy threshold window step : Byte, given.getLsbD 2 = true → 2 < policy.toNat →
    decodeOp ⟨0x20, [b, m, given, bits, policy, threshold, window, step]⟩ = none) ∧
  (∀ on off : Byte, on &&& off ≠ 0 → decodeOp ⟨0x13, [on, off]⟩ = none)

/-- READ RESPONSE: the oldest response or the empty-response marker is shifted out, 0x00 beyond it, and the
response is removed exactly if all of it was (R147, R143). -/
def Obligations.ReadResponseShiftsOldest : Prop :=
  ∀ (s : State) (d : Slot) (n : Nat),
    ∃ t, exec (.readResponse d n) s = .next t ∧
      inputsKept s t ∧ otherSlotsKept d s t ∧ t.executor = s.executor ∧ t.sys = s.sys ∧
      t.freeCount = s.freeCount ∧ t.pending = s.pending ∧
      t.port = { s.port with sdo := t.port.sdo } ∧
      match (s.slot d).responses with
      | [] => t.slot d = s.slot d ∧
        t.port.sdo = s.summaryByte :: ([0, 0, 0, 4].take n ++ List.replicate (n - 4) 0)
      | x :: rest =>
        t.slot d = (if x.toBytes.length ≤ n then { s.slot d with responses := rest } else s.slot d) ∧
        t.port.sdo = s.summaryByte ::
          (x.toBytes.take n ++ List.replicate (n - x.toBytes.length) 0)

/-- The layout of a response: tag, result count, its own length, then each result with its image; at most
612 bytes (R152). -/
def Obligations.ResponseLayout : Prop :=
  (∀ x : Response, x.Lawful →
    x.toBytes.length ≤ 612 ∧
    x.toBytes[0]? = some x.tag ∧ x.toBytes[1]? = some (BitVec.ofNat 8 x.results.length) ∧
    (∃ hi lo : Byte, x.toBytes[2]? = some hi ∧ x.toBytes[3]? = some lo ∧
      256 * hi.toNat + lo.toNat = x.toBytes.length) ∧
    x.toBytes.drop 4 = x.results.flatMap OpResult.toBytes) ∧
  (∀ q : OpResult, q.toBytes =
    [q.code.value, BitVec.ofNat 8 q.matched, BitVec.ofNat 8 q.applied, BitVec.ofNat 8 q.refused,
      match q.first with
      | some k => BitVec.ofNat 8 k.val
      | none => 0xFF,
      BitVec.ofNat 8 q.image.length] ++ q.image) ∧
  [ResultCode.done, .clamped, .queued, .pending].map ResultCode.value = [0x00, 0x01, 0x02, 0x03] ∧
  [ResultCode.noMatch, .noTap, .tapOpen, .notOwner, .denied, .busy, .locked, .phantomOn, .modeConflict,
      .supply, .fault, .badPattern, .badOp, .deskState].map ResultCode.value =
    [0x10, 0x11, 0x12, 0x13, 0x14, 0x15, 0x16, 0x17, 0x18, 0x19, 0x1A, 0x1B, 0x1C, 0x1D]

/-- READ PORT STATUS: the 14 bytes of the status, 0x00 beyond them, and the flags cleared by what was
completely shifted out (R149, R152). The bits outside the masks are free (log entry 5). -/
def Obligations.ReadPortStatusShowsAndClears : Prop :=
  ∀ (s : State) (n : Nat), (∀ d, (s.slot d).requests.length ≤ 8 ∧ (s.slot d).responses.length ≤ 4 ∧
      (s.slot d).threshold ≤ 7) →
    ∃ t, exec (.readPortStatus n) s = .next t ∧
      inputsKept s t ∧ t.executor = s.executor ∧ t.sys = s.sys ∧ t.pending = s.pending ∧
      t.port.lastOutcome = s.port.lastOutcome ∧ t.port.lastSlot = s.port.lastSlot ∧
      t.port.error = (if 1 ≤ n then false else s.port.error) ∧
      (∀ d : Slot, t.slot d = { s.slot d with
        overrun := if 2 * d.val + 4 ≤ n then false else (s.slot d).overrun }) ∧
      t.port.sdo.length = n + 1 ∧ t.port.sdo[0]? = some s.summaryByte ∧
      (1 ≤ n → t.port.sdo[1]? = some s.summaryByte) ∧
      (2 ≤ n → shows t.port.sdo 2 0x70 (BitVec.ofNat 8 (16 * s.port.lastOutcome.code)) ∧
        shows t.port.sdo 2 0x07 (s.port.lastSlot.setWidth 8)) ∧
      (∀ d : Slot, 2 * d.val + 3 ≤ n →
        shows t.port.sdo (2 * d.val + 3) 0xF0 (BitVec.ofNat 8 (16 * (s.slot d).requests.length)) ∧
        shows t.port.sdo (2 * d.val + 3) 0x0E (BitVec.ofNat 8 (2 * (s.slot d).responses.length)) ∧
        shows t.port.sdo (2 * d.val + 3) 0x01
          (if (s.slot d).requests.length ≤ (s.slot d).threshold then 1 else 0)) ∧
      (∀ d : Slot, 2 * d.val + 4 ≤ n →
        shows t.port.sdo (2 * d.val + 4) 0xC0 (match (s.slot d).state with
          | .closed => 0x00
          | .opened => 0x40
          | .absent => 0x80) ∧
        shows t.port.sdo (2 * d.val + 4) 0x20 (if (s.slot d).overrun then 0x20 else 0) ∧
        shows t.port.sdo (2 * d.val + 4) 0x10 (if (s.slot d).contributes then 0x10 else 0) ∧
        shows t.port.sdo (2 * d.val + 4) 0x07 (BitVec.ofNat 8 (s.slot d).threshold)) ∧
      (∀ i, 14 < i → i ≤ n → t.port.sdo[i]? = some 0)

/-- SET QUEUE THRESHOLD and an ignored transaction (R148, R143); the bytes that SDO carries beyond the present
threshold are free (log entry 6), and an ignored transaction given a command byte that names another row's does
nothing (log entry 8). And how the part reads the command byte of a transaction: the code in bits 7..4, the slot
in bits 2..0, bit 3 ignored (R143), and a command byte that is not complete naming no command, whatever bits of it
came in (log entry 23); the transaction is then the next event of an idle part (log entry 22). -/
def Obligations.ThresholdAndIgnoredTransactions : Prop :=
  (∀ (s : State) (d : Slot) (bytes : List Byte),
    ∃ t, exec (.setQueueThreshold d bytes) s = .next t ∧
      inputsKept s t ∧ otherSlotsKept d s t ∧ t.executor = s.executor ∧ t.sys = s.sys ∧
      t.pending = s.pending ∧ t.port.lastOutcome = s.port.lastOutcome ∧
      t.port.lastSlot = s.port.lastSlot ∧
      t.port.sdo.length = bytes.length + 1 ∧ t.port.sdo[0]? = some s.summaryByte ∧
      match bytes with
      | [] => t.slot d = s.slot d ∧ t.port.error = true
      | v :: _ => t.port.error = s.port.error ∧
        t.port.sdo[1]? = some (BitVec.ofNat 8 (s.slot d).threshold) ∧
        t.slot d = if v.toNat ≤ 7 ∧ (s.slot d).state ≠ .closed then
            { s.slot d with threshold := v.toNat } else s.slot d) ∧
  (∀ (s : State) (cmd : Option Byte) (n : Nat),
    (∀ c ∈ cmd, c.toNat / 16 = 0 ∨ 4 < c.toNat / 16 ∨ (6 ≤ c.toNat % 8 ∧ c.toNat / 16 ≠ 3)) →
    exec (.ignoredTransaction cmd n) s = .next { s with port := { s.port with
      error := true
      lastOutcome := if cmd.any fun c => c.toNat / 16 == 1 then .malformed else s.port.lastOutcome
      lastSlot := match cmd with
        | some c => if c.toNat / 16 = 1 then c.setWidth 3 else s.port.lastSlot
        | none => s.port.lastSlot
      sdo := match cmd with
        | some _ => s.summaryByte :: List.replicate n 0
        | none => [] } }) ∧
  (∀ (s : State) (c : Byte) (n : Nat), 1 ≤ c.toNat / 16 → c.toNat / 16 ≤ 4 →
    (c.toNat % 8 < 6 ∨ c.toNat / 16 = 3) → exec (.ignoredTransaction (some c) n) s = .next s) ∧
  (∀ stray : Fin 8, readTransaction [] stray = .ignoredTransaction none 0) ∧
  (∀ (c : Byte) (rest : List Byte) (stray : Fin 8),
    let code := (c.extractLsb' 4 4).toNat
    let slot := (c.extractLsb' 0 3).toNat
    let t := readTransaction (c :: rest) stray
    (∀ d : Slot, slot = d.val → (code = 1 → t = .writeBundle d rest stray) ∧
      (code = 2 → t = .readResponse d rest.length) ∧ (code = 4 → t = .setQueueThreshold d rest)) ∧
    (code = 3 → t = .readPortStatus rest.length) ∧
    (code = 0 ∨ 4 < code ∨ (6 ≤ slot ∧ code ≠ 3) → t = .ignoredTransaction (some c) rest.length)) ∧
  (∀ (s : State) (bytes : List Byte) (stray : Fin 8), s.pending = [] →
    step (s.receive bytes stray) = exec (readTransaction bytes stray) s)

/-- The bits of the summary byte and bit 4 of a slot's second status byte, ATTN, and the executor bit
(R150, R143). -/
def Obligations.AttentionBitsAndAttn : Prop :=
  ∀ s : State,
    (∀ d : Slot, s.summaryByte.getLsbD d.val = (s.slot d).contributes) ∧
    s.summaryByte.getLsbD 6 = s.executor.run.isSome ∧ s.summaryByte.getLsbD 7 = s.port.error ∧
    (∀ d, (s.slot d).threshold ≤ 7 → ∃ a b, slotEntry (s.slot d) = [a, b] ∧
      b.mask.getLsbD 4 = true ∧ b.value.getLsbD 4 = (s.slot d).contributes) ∧
    (s.attnLow = true ↔ ∃ d : Slot, s.summaryByte.getLsbD d.val = true)

/-- What makes a slot hold ATTN low: an enabled level notice that is true, an enabled sticky notice other
than GLIDE_DONE whose flag is set, or an enabled GLIDE_DONE whose pulse window is open (R141, R137). -/
def Obligations.AttentionContribution : Prop :=
  ∀ r : SlotRec, r.contributes = true ↔ r.state ≠ .closed ∧
    ((r.enables.response = true ∧ r.responses ≠ []) ∨
      (r.enables.marks = true ∧ ∃ k, r.marks.get k = true) ∨
      (r.enables.ownership = true ∧ r.flags.ownership = true) ∨
      (r.enables.frontend = true ∧ r.flags.frontend = true) ∨
      (r.enables.overload = true ∧ r.flags.overload = true) ∨
      (r.enables.overrun = true ∧ r.flags.overrun = true) ∨
      (r.enables.supply = true ∧ r.flags.supply = true) ∨
      (r.enables.glideDone = true ∧ r.pulse.isSome = true))

/-- What an event at one input does to the rest of the part: beside the input's record it changes only marks,
sticky flags and pulse windows. It marks its input for the OPEN and ABSENT slots that it names, for tap
holders and observers where the input record changed, and for the holder of a tap that changed; it sets the
sticky flags it raises; and a raising of GLIDE_DONE opens the window at 1 ms (R133 to R135, R137, R138; the
tap holders are those after the event, log entry 15). The last two clauses list the fields whose changes mark:
so the clip count, the window timer, a glide's step and step timer, and the passage between the sequencer's busy
states do not. -/
def Obligations.EventMarksAndNotices : Prop :=
  (∀ (s : State) (k : Input) (x : Inp) (out : List Signal),
    let t := s.after k x out
    t.inp k = x ∧ otherInputsKept k s t ∧ restKept s t ∧
    ∀ d, (s.slot d).sameButNotices (t.slot d) ∧
      (∀ j, (t.slot d).marks.get j = true ↔ (s.slot d).marks.get j = true ∨
        ((s.slot d).state ≠ .closed ∧ j = k ∧
          (.mark d ∈ out ∨
            ((s.inp k).view ≠ x.view ∧ (x.holds d = true ∨ (s.slot d).perms.observer = true)) ∨
            (x.holds d = true ∧ (s.inp k).tapView d ≠ x.tapView d)))) ∧
      (∀ n, (t.slot d).flags.has n = true ↔
        (s.slot d).flags.has n = true ∨ ((s.slot d).state ≠ .closed ∧ .raise n d ∈ out)) ∧
      (t.slot d).pulse =
        if (s.slot d).state ≠ .closed ∧ .raise .glideDone d ∈ out then some 1 else (s.slot d).pulse) ∧
  ∀ x y : Inp,
    let level := fun z : Inp => z.owner.bind fun d => (z.tap d).map fun t => z.net + t.trim
    let glide := fun z : Inp => z.glide.map fun g => (g.target, g.rate, g.source, g.state, g.staged)
    let tap := fun (z : Inp) (d : Slot) => (z.tap d).map fun t => (t.role, t.desired, t.trim, t.mute)
    (x.view = y.view ↔
      x.mode = y.mode ∧ x.gain = y.gain ∧ x.phantom = y.phantom ∧ x.lock = y.lock ∧
      x.isProtected = y.isProtected ∧ x.fault = y.fault ∧ x.recheck = y.recheck ∧
      (x.seq = .idle ↔ y.seq = .idle) ∧ x.request = y.request ∧ x.owner = y.owner ∧ x.queue = y.queue ∧
      (∀ d, x.holds d = y.holds d) ∧ level x = level y ∧ glide x = glide y ∧
      x.guard.policy = y.guard.policy ∧ x.guard.threshold = y.guard.threshold ∧
      x.guard.window = y.guard.window ∧ x.guard.backStep = y.guard.backStep ∧
      x.guard.total = y.guard.total ∧ x.guard.last = y.guard.last) ∧
    ∀ d, x.tapView d = y.tapView d ↔
      tap x d = tap y d ∧ (x.holds d = true → x.claimPosition d = y.claimPosition d)

/-! ## The bundle executor -/

/-- BUNDLE TAKE: while IDLE the executor takes the oldest bundle of the system slot if that is takeable, else
of the first takeable slot after the round-robin pointer, wrapping from 5 to 1; otherwise nothing happens
(R120). -/
def Obligations.BundleTakeArbitrates : Prop :=
  ∀ s : State,
    let takeable := fun d : Slot => (s.slot d).requests ≠ [] ∧ (s.slot d).responses.length < 4 ∧
      s.executor.resetRequested = false
    let turn := fun d : Slot => (d.val + 4 - s.executor.pointer.val) % 5
    (s.executor.run.isSome = true ∨ (∀ d, ¬ takeable d) → exec .bundleTake s = .next s) ∧
    (∀ (d : Slot) (b : Bundle) (more : List Bundle), s.executor.run = none →
      takeable d → (d ≠ 0 → ¬ takeable 0 ∧ ∀ e, e ≠ 0 → takeable e → turn d ≤ turn e) →
      (s.slot d).requests = b :: more →
      exec .bundleTake s = .next { s with
        slots := s.slots.set d { s.slot d with requests := more }
        executor := { s.executor with
          run := some ⟨d, b.tag, b.ops, 0, [], none⟩
          pointer := if d = 0 then s.executor.pointer else d } })

/-- BUNDLE END: the response joins the sender's queue, the glide engine visits every input with a WAITING
glide or a staged retarget, a requested control reset is carried out, and the executor is IDLE (R122). Beside
the response and the visited inputs, only marks, sticky flags and pulse windows change: each visited input is
marked for its tap holders and the observers, and the flags and windows are those of the GLIDE_DONE that the
visits raise (R81, R82, R134, R138). With no bundle in execution, or before its last operation is applied,
nothing happens (log entry 8). -/
def Obligations.BundleEndInOrder : Prop :=
  (∀ s : State, (∀ r, s.executor.run = some r → r.pos < r.ops.length) →
    exec .bundleEnd s = .next s) ∧
  ∀ (s : State) (r : Run), s.executor.run = some r → r.ops.length ≤ r.pos →
    ∃ u : State,
      exec .bundleEnd s =
        .next ((if s.executor.resetRequested then u.controlReset else u).setRun none) ∧
      restKept s u ∧
      (∀ k, u.inp k = if (s.inp k).bundleGlide then (s.evAt k bundleEndAt).inp else s.inp k) ∧
      ∀ d, (if d = r.slot then
            { s.slot d with responses := (s.slot d).responses ++ [⟨r.tag, r.results⟩] }
          else s.slot d).sameButNotices (u.slot d) ∧
        (∀ k, (u.slot d).marks.get k = true ↔ (s.slot d).marks.get k = true ∨
          ((s.slot d).state ≠ .closed ∧ (s.inp k).bundleGlide = true ∧
            ((s.inp k).holds d = true ∨ (s.slot d).perms.observer = true))) ∧
        (∀ n, (u.slot d).flags.has n = true ↔ (s.slot d).flags.has n = true ∨
          ((s.slot d).state ≠ .closed ∧ ∃ k, (s.inp k).bundleGlide = true ∧
            .raise n d ∈ (s.evAt k bundleEndAt).out)) ∧
        (u.slot d).pulse = if (s.slot d).state ≠ .closed ∧ (∃ k, (s.inp k).bundleGlide = true ∧
            .raise .glideDone d ∈ (s.evAt k bundleEndAt).out) then some 1 else (s.slot d).pulse

/-- The glide engine's visit at the end of a bundle: a WAITING glide at its target is dropped with GLIDE_DONE
for the owner, and any other becomes STEPPING, with its first step made ready if the sequencer is IDLE; a
staged retarget takes effect as the owner's, and ends the glide where its target is G with no step outstanding
(R81, R82, R83). -/
def Obligations.BundleEndStartsGlides : Prop :=
  ∀ (v : Env) (x : Inp) (g : Glide), x.glide = some g →
    (g.state = .waiting →
      bundleEndAt v ⟨x, [], .done⟩ =
        if g.target = x.gain then ⟨x.withoutGlide, glideDoneFor v x g.source, .done⟩
        else if x.seq = .idle then
          Ev.pump v ⟨{ x with
            glide := some { g with state := .stepping, step := .ready }
            waiting := x.waiting ++ [.step] }, [], .done⟩
        else ⟨{ x with glide := some { g with state := .stepping } }, [], .done⟩) ∧
    (∀ q, g.state = .stepping → g.staged = some q →
      bundleEndAt v ⟨x, [], .done⟩ =
        if g.step ≠ .outstanding ∧ q.target = x.gain then
          ⟨x.withoutGlide, glideDoneFor v x .owner, .done⟩
        else ⟨{ x with glide := some { g with
          target := q.target, rate := q.rate, source := .owner, staged := none } }, [], .done⟩)

/-- The checks before an operation: a record that carries no operation is refused BAD_OP, whether its kind is
known or not, and a system operation from another slot DENIED, with all counts 0; and the executor has no step
of a kind that its next operation is not (R125, R126; the last is log entry 8). -/
def Obligations.OperationsChecked : Prop :=
  ∀ (s : State) (r : Run) (c : OpRec), s.nextRecord = some (r, c) →
    (kindKnown c.kind = false →
      exec .unknownOperationKind s = .next (s.gather r ⟨.badOp, 0, 0, 0, none, []⟩)) ∧
    (∀ i : Instr, commandKind i = some c.kind →
      (decodeOp c = none → exec i s = .next (s.gather r ⟨.badOp, 0, 0, 0, none, []⟩)) ∧
      (∀ o, decodeOp c = some o → o.systemOnly = true → r.slot ≠ 0 →
        exec i s = .next (s.gather r ⟨.denied, 0, 0, 0, none, []⟩))) ∧
    (∀ (i : Instr) (q : Byte), commandKind i = some q → q ≠ c.kind → exec i s = .next s)

/-- The checks at a pattern, in their order: BAD_PATTERN, DENIED and NO_MATCH refuse the whole operation with
all counts 0 (R124). -/
def Obligations.PatternsChecked : Prop :=
  ∀ (s : State) (r : Run) (o : Op) (p : Pattern) (exact : Bool) (i : Instr),
    s.sends r o → opPattern o = some (p, exact) → commandKind i = some o.kind → r.progress = none →
    (exact = true → p.mask ≠ 0 →
      exec i s = .next (s.gather r ⟨.badPattern, 0, 0, 0, none, []⟩)) ∧
    ((exact = true → p.mask = 0) → p.mask = 63 → (s.slot r.slot).perms.broadcast = false →
      exec i s = .next (s.gather r ⟨.denied, 0, 0, 0, none, []⟩)) ∧
    ((exact = true → p.mask = 0) → (p.mask = 63 → (s.slot r.slot).perms.broadcast = true) →
      s.expand p = [] → exec i s = .next (s.gather r ⟨.noMatch, 0, 0, 0, none, []⟩)) ∧
    ((exact = true → p.mask = 0) → (p.mask = 63 → (s.slot r.slot).perms.broadcast = true) →
      ∀ k rest, s.expand p = k :: rest → s.nextAt r p exact k rest [])

/-- What a pattern matches: the inputs that agree with the base where the mask is clear, protected ones left
out of a mask that is not 0, each once in ascending order (R123). -/
def Obligations.PatternMatches : Prop :=
  ∀ (s : State) (p : Pattern),
    (∀ k : Input, k ∈ s.expand p ↔
      (∀ i, i < 6 → p.mask.getLsbD i = false → k.val.testBit i = p.base.getLsbD i) ∧
      (p.mask ≠ 0 → (s.inp k).isProtected = false)) ∧
    (s.expand p).Pairwise (· < ·)

/-- The result of an operation from its per-input results: the counts, the first refused input, and the code:
the first refusal, else CLAMPED, PENDING or QUEUED where one occurred, else DONE (R126, R127, R128). And how
results are gathered: a per-input result joins those of its operation, and after the last one the operation's
result joins those of the bundle, whose next operation follows (R121, R126). -/
def Obligations.ResultSummarised : Prop :=
  (∀ (results : List (Input × ResultCode)) (image : List Byte),
    let x := OpResult.summary results image
    let refused := results.filter fun q =>
      [ResultCode.noTap, .tapOpen, .notOwner, .denied, .busy, .locked, .phantomOn, .modeConflict,
        .supply, .fault, .deskState, .noMatch, .badPattern, .badOp].contains q.2
    let codes := results.map Prod.snd
    x.matched = results.length ∧ x.refused = refused.length ∧ x.applied + x.refused = x.matched ∧
    x.image = image ∧
    (∀ k c, refused.head? = some (k, c) → x.first = some k ∧ x.code = c) ∧
    (refused = [] → x.first = none ∧
      (.clamped ∈ codes → x.code = .clamped) ∧
      (.clamped ∉ codes → .pending ∈ codes → x.code = .pending) ∧
      (.clamped ∉ codes → .pending ∉ codes → .queued ∈ codes → x.code = .queued) ∧
      (.clamped ∉ codes → .pending ∉ codes → .queued ∉ codes → x.code = .done))) ∧
  (∀ (s : State) (r : Run) (q : OpResult), s.gather r q = { s with executor := { s.executor with
    run := some { r with pos := r.pos + 1, results := r.results ++ [q], progress := none } } }) ∧
  ∀ (s : State) (r : Run) (k : Input) (past : List (Input × ResultCode)) (c : ResultCode) (image : List Byte),
    s.answered r k [] past c image = s.gather r (OpResult.summary (past ++ [(k, c)]) image) ∧
    ∀ (j : Input) (more : List Input), s.answered r k (j :: more) past c image =
      { s with executor := { s.executor with
        run := some { r with progress := some ⟨j :: more, past ++ [(k, c)]⟩ } } }

/-! ## Taps -/

/-- OPEN TAP at its next input: TAP_OPEN where the slot holds a tap, and otherwise a new tap with the level
given or N, the trim L - N clamped, role TRACKING or CLAMPED as that computation finds, desk mute off, the desk
gate at 0 and the coefficient of the trim (R25, R64, R34, R73). -/
def Obligations.OpenTapMakesTap : Prop :=
  ∀ (s : State) (r : Run) (p : Pattern) (level : Option (BitVec 16)) (k : Input) (rest : List Input)
    (past : List (Input × ResultCode)),
    s.sends r (.openTap p level) → s.nextAt r p false k rest past →
    let x := s.inp k
    let given := match level with
      | some v => max (-240) (min 320 v.toInt)
      | none => x.net
    let trim := max (-160) (min 80 (given - x.net))
    exec .openTap s = .next (
      if x.holds r.slot then s.answered r k rest past .tapOpen []
      else (s.after k { x with taps := x.taps.set r.slot (some {
          role := if trim = given - x.net then .tracking else .clamped
          desired := some given
          trim := trim
          mute := false
          gate := 0
          coef := coefficient trim
          inForce := trim
          fade := none
          waiting := [] }) } []).answered r k rest past
        (if (∃ v ∈ level, v.toInt ≠ given) ∨ trim ≠ given - x.net then .clamped else .done) [])

/-- CLOSE TAP at its next input: NO_TAP, or the tap retired: ownership handed to the head of the claim queue, or
the place in the queue given up, then the record removed and the slot's own mark cleared last (R26, R59). -/
def Obligations.CloseTapRetiresTap : Prop :=
  ∀ (s : State) (r : Run) (p : Pattern) (k : Input) (rest : List Input)
    (past : List (Input × ResultCode)),
    s.sends r (.closeTap p) → s.nextAt r p false k rest past →
    let x := s.inp k
    exec .closeTap s = .next (
      if x.holds r.slot then
        let left := if x.owner = some r.slot then
            { x with queue := x.queue.tail }.handedOver x.queue.head?
          else { x with queue := x.queue.filter (· != r.slot) }
        let out := if x.owner = some r.slot then ownershipFor x x.queue.head? else []
        let t := s.after k { left with taps := left.taps.set r.slot none } out
        { t with slots := t.slots.set r.slot { t.slot r.slot with
            marks := (t.slot r.slot).marks.set k false } }.answered r k rest past .done []
      else s.answered r k rest past .noTap [])

/-- SET LEVEL at its next input: NO_TAP; the owner's trim set to L' - N or T + delta; or a non-owner's desired
level set and its trim and role computed. A trim that changed starts a crossfade at once and discards the
waiting changes (R27, R28, R36, R64, R67). -/
def Obligations.SetLevelSetsTrim : Prop :=
  ∀ (s : State) (r : Run) (p : Pattern) (relative : Bool) (v : BitVec 16) (k : Input) (rest : List Input)
    (past : List (Input × ResultCode)),
    s.sends r (.setLevel p relative v) → s.nextAt r p false k rest past →
    let x := s.inp k
    let value := v.toInt
    let given := if relative then max (-320) (min 320 value) else max (-240) (min 320 value)
    let moved := fun (t u : Tap) => if u.trim = t.trim then u
      else { u with inForce := u.trim, fade := some ⟨u.coef, 0⟩, waiting := [] }
    (x.tap r.slot = none → exec .setLevel s = .next (s.answered r k rest past .noTap [])) ∧
    (∀ t, x.tap r.slot = some t → t.role = .owner →
      let want := if relative then t.trim + given else given - x.net
      let trim := max (-160) (min 80 want)
      exec .setLevel s = .next ((s.after k { x with
        taps := x.taps.set r.slot (some (moved t { t with trim := trim })) } []).answered r k rest past
        (if given ≠ value ∨ trim ≠ want then .clamped else .done) [])) ∧
    (∀ t l, x.tap r.slot = some t → t.role ≠ .owner → t.desired = some l →
      let want := if relative then l + given else given
      let level := max (-240) (min 320 want)
      let trim := max (-160) (min 80 (level - x.net))
      let role := if trim = level - x.net then Role.tracking else .clamped
      exec .setLevel s = .next ((s.after k { x with
        taps := x.taps.set r.slot (some (moved t { t with
          trim := trim, role := role, desired := some level })) } []).answered r k rest past
        (if given ≠ value ∨ level ≠ want ∨ role = .clamped then .clamped else .done) []))

/-- SET TAP MUTE at its next input: NO_TAP, or the desk mute takes the value and nothing else changes, so the
desk gate moves from where it stands (R31, R34). -/
def Obligations.SetTapMuteSetsMute : Prop :=
  ∀ (s : State) (r : Run) (p : Pattern) (on : Bool) (k : Input) (rest : List Input)
    (past : List (Input × ResultCode)),
    s.sends r (.setTapMute p on) → s.nextAt r p false k rest past →
    let x := s.inp k
    exec .setTapMute s = .next (match x.tap r.slot with
      | none => s.answered r k rest past .noTap []
      | some t => (s.after k { x with
          taps := x.taps.set r.slot (some { t with mute := on }) } []).answered r k rest past .done [])

/-- READ TAP at its input: NO_TAP, or DONE with the tap image; the record and the marks stay (R32, R153). The
bits outside the masks are free (log entry 5). The claim position is the place in the claim queue, 1 for its
head, and absent outside it (R23, R30). -/
def Obligations.ReadTapShowsTap : Prop :=
  (∀ (s : State) (r : Run) (p : Pattern) (k : Input) (rest : List Input)
    (past : List (Input × ResultCode)),
    s.sends r (.readTap p) → s.nextAt r p true k rest past →
    let x := s.inp k
    (x.tap r.slot = none → exec .readTap s = .next (s.answered r k rest past .noTap [])) ∧
    (∀ t, x.tap r.slot = some t → ∃ image : List Byte,
      exec .readTap s =
        .next ({ s with freeCount := s.freeCount + 10 }.answered r k rest past .done image) ∧
      image.length = 10 ∧
      shows image 0 0xFF (BitVec.ofNat 8 r.slot) ∧ shows image 1 0xFF (BitVec.ofNat 8 k) ∧
      shows image 2 0x03 (match t.role with
        | .owner => 0
        | .tracking => 1
        | .clamped => 2) ∧
      shows image 2 0x40 (if t.mute then 0x40 else 0) ∧
      shows image 2 0x80 (if t.desired.isSome then 0x80 else 0) ∧
      (image.drop 3).take 6 =
        bytesOf16 (BitVec.ofInt 16 (t.desired.getD 0)) ++ bytesOf16 (BitVec.ofInt 16 t.trim) ++
        bytesOf16 (BitVec.ofInt 16 (x.net + t.trim)) ∧
      shows image 9 0xFF (BitVec.ofNat 8 ((x.claimPosition r.slot).getD 0)))) ∧
  ∀ (x : Inp) (d : Slot), (d ∉ x.queue → x.claimPosition d = none) ∧
    ∀ ahead behind, x.queue = ahead ++ d :: behind → d ∉ ahead →
      x.claimPosition d = some (ahead.length + 1)

/-! ## Ownership -/

/-- CLAIM at its next input, judged in the order of R43: DENIED, DESK_STATE, NO_TAP, already the owner, orphaned,
pre-emption, and otherwise the claim queue (R43, R44, R45). And where a slot is placed in the queue: just
behind the last entry that the rule ranks ahead of it, or at the head (R42). -/
def Obligations.ClaimJudged : Prop :=
  (∀ (s : State) (r : Run) (p : Pattern) (force : Bool) (k : Input) (rest : List Input)
    (past : List (Input × ResultCode)),
    s.sends r (.claim p force) → s.nextAt r p false k rest past →
    let x := s.inp k
    let d := r.slot
    let q := s.slot d
    let rank := fun c : Slot => (s.slot c).rank
    exec .claim s = .next (
      if q.perms.own = false then s.answered r k rest past .denied []
      else if q.state ≠ .opened then s.answered r k rest past .deskState []
      else if x.tap d = none then s.answered r k rest past .noTap []
      else match x.owner with
        | none => (s.after k (x.handedOver (some d)) (ownershipFor x (some d))).answered r k rest past .done []
        | some o =>
          if o = d then s.answered r k rest past .done []
          else if force = true ∧ q.perms.preempt = true ∧ rank o < rank d then
            let y := { x with queue := x.queue.filter (· != d) }.handedOver (some d)
            (s.after k { y with queue := insertBehind (fun c => rank o < rank c) o y.queue }
              (ownershipFor x (some d))).answered r k rest past .done []
          else
            (s.after k { x with queue :=
                if d ∈ x.queue then x.queue
                else insertBehind (fun c => rank d ≤ rank c) d x.queue } []).answered
              r k rest past .queued [])) ∧
  (∀ (ahead : Slot → Bool) (d : Slot) (q : List Slot), ∃ a b, q = a ++ b ∧
    insertBehind ahead d q = a ++ d :: b ∧ (∀ c ∈ b, ahead c = false) ∧
    (∀ c, a.getLast? = some c → ahead c = true))

/-- RELEASE at its next input: from the owner the input is handed to the head of its queue or orphaned, from a
queued slot its place is given up with no hand-over, and otherwise NOT_OWNER (R47, R48). -/
def Obligations.ReleaseJudged : Prop :=
  ∀ (s : State) (r : Run) (p : Pattern) (k : Input) (rest : List Input)
    (past : List (Input × ResultCode)),
    s.sends r (.release p) → s.nextAt r p false k rest past →
    let x := s.inp k
    exec .release s = .next (
      if x.owner = some r.slot then
        (s.after k ({ x with queue := x.queue.tail }.handedOver x.queue.head?)
          (ownershipFor x x.queue.head?)).answered r k rest past .done []
      else if r.slot ∈ x.queue then
        (s.after k { x with queue := x.queue.filter (· != r.slot) } []).answered r k rest past .done []
      else s.answered r k rest past .notOwner [])

/-- A hand-over: the owner field takes the incoming owner; the outgoing owner's tap captures L = N + T and is
TRACKING; the incoming owner's tap is OWNER with no desired level; no trim changes; an owner glide is dropped
with its ready step, and a guard glide continues without its staged retarget (R49, R50, R51, R69, R90). -/
def Obligations.HandOverCapturesAndFreezes : Prop :=
  ∀ (x : Inp) (incoming : Option Slot),
    let y := x.handedOver incoming
    y = { x with owner := incoming, taps := y.taps, glide := y.glide, waiting := y.waiting } ∧
    (∀ d, y.tap d = (x.tap d).map fun t =>
      if incoming = some d then { t with role := .owner, desired := none }
      else if x.owner = some d then { t with role := .tracking, desired := some (x.net + t.trim) }
      else t) ∧
    (y.glide = match x.glide with
      | some g => if g.source = .owner then none else some { g with staged := none }
      | none => none) ∧
    y.waiting = if x.glide.any fun g => g.source == .owner then x.waiting.filter (· != .step)
      else x.waiting

/-! ## Gain -/

/-- SET GAIN at its next input: NOT_OWNER, FAULT, or the target and rate formed and clamped, the back-off total
cleared, and the glide created, changed, dropped or given a staged retarget (R55, R11, R70, R78, R79, R80,
R103). -/
def Obligations.SetGainSetsTarget : Prop :=
  ∀ (s : State) (r : Run) (p : Pattern) (relative : Bool) (v : Byte) (rate : Option Byte) (k : Input)
    (rest : List Input) (past : List (Input × ResultCode)),
    s.sends r (.setGain p relative v rate) → s.nextAt r p false k rest past →
    let x := s.inp k
    let top : Int := match x.mode with
      | .off => 0
      | .mic => 60
      | .line => 40
      | .inst => 40
    let base : Nat := match x.glide with
      | some g => (g.staged.map Retarget.target).getD g.target
      | none => x.gain
    let delta := max (-60) (min 60 v.toInt)
    let want := if relative then (base : Int) + delta else v.toInt
    let target := (max 0 (min top want)).toNat
    let ms := match rate with
      | some b => min 100 b.toNat
      | none => 20
    let clamped := (relative = true ∧ delta ≠ v.toInt) ∨ (target : Int) ≠ want ∨ ∃ b ∈ rate, 100 < b.toNat
    let y := { x with guard := { x.guard with total := 0 } }
    exec .setGain s = .next (
      if x.owner ≠ some r.slot then s.answered r k rest past .notOwner []
      else if x.fault then s.answered r k rest past .fault []
      else (s.after k (match x.glide with
          | none => if target = x.gain then y
            else { y with glide := some ⟨target, ms, .owner, .waiting, .absent, none, none⟩ }
          | some g => if g.state = .stepping then
              { y with glide := some { g with staged := some ⟨target, ms⟩ } }
            else if target = x.gain then y.withoutGlide
            else { y with glide := some { g with target := target, rate := ms } }) []).answered
        r k rest past (if clamped then .clamped else .done) [])

/-- STOP GLIDE at its next input: NOT_OWNER; nothing where no glide is held; with a step outstanding the target
becomes the gain it carries; and otherwise the glide ends with GLIDE_DONE for the owner (R55, R86). -/
def Obligations.StopGlideEndsGlide : Prop :=
  ∀ (s : State) (r : Run) (p : Pattern) (k : Input) (rest : List Input)
    (past : List (Input × ResultCode)),
    s.sends r (.stopGlide p) → s.nextAt r p false k rest past →
    let x := s.inp k
    (x.owner ≠ some r.slot → exec .stopGlide s = .next (s.answered r k rest past .notOwner [])) ∧
    (x.owner = some r.slot → x.glide = none →
      exec .stopGlide s = .next (s.answered r k rest past .done [])) ∧
    (∀ g c i left, x.owner = some r.slot → x.glide = some g → g.state = .stepping →
      g.step = .outstanding → x.outstanding = some ⟨.gain c, i, left⟩ →
      exec .stopGlide s = .next ((s.after k { x with glide := some { g with
        target := c, source := .owner, staged := none } } []).answered r k rest past .done [])) ∧
    (∀ g, x.owner = some r.slot → x.glide = some g → (g.state = .waiting ∨ g.step ≠ .outstanding) →
      exec .stopGlide s = .next ((s.after k x.withoutGlide [.raise .glideDone r.slot]).answered
        r k rest past .done []))

/-! ## The front end -/

/-- SET MODE and SET PHANTOM at their next input: NOT_OWNER, FAULT, stored or BUSY at a busy sequencer, and
otherwise judged in the order of R12 and R13; an accepted change starts a sequence (R55, R11 to R14, R17). -/
def Obligations.FrontEndRequestsJudged : Prop :=
  (∀ (s : State) (r : Run) (p : Pattern) (m : Mode) (k : Input) (rest : List Input)
    (past : List (Input × ResultCode)),
    s.sends r (.setMode p m) → s.nextAt r p false k rest past →
    let x := s.inp k
    exec .setMode s = .next (
      if x.owner ≠ some r.slot then s.answered r k rest past .notOwner []
      else if x.fault then s.answered r k rest past .fault []
      else if x.seq ≠ .idle then
        if x.request.isSome then s.answered r k rest past .busy []
        else (s.after k { x with request := some ⟨.mode m, r.slot⟩ } []).answered r k rest past .pending []
      else if m = x.mode then s.answered r k rest past .done []
      else if x.phantom = true ∧ (x.mode = .mic ∨ x.mode = .line) ∧ (m = .inst ∨ m = .off) then
        s.answered r k rest past .phantomOn []
      else (s.after k (x.sequenceStarted (.mode m) r.slot) []).answered r k rest past .done [])) ∧
  (∀ (s : State) (r : Run) (p : Pattern) (on : Bool) (k : Input) (rest : List Input)
    (past : List (Input × ResultCode)),
    s.sends r (.setPhantom p on) → s.nextAt r p false k rest past →
    let x := s.inp k
    exec .setPhantom s = .next (
      if x.owner ≠ some r.slot then s.answered r k rest past .notOwner []
      else if x.fault then s.answered r k rest past .fault []
      else if x.seq ≠ .idle then
        if x.request.isSome then s.answered r k rest past .busy []
        else (s.after k { x with request := some ⟨.phantom on, r.slot⟩ } []).answered r k rest past .pending []
      else if on = x.phantom then s.answered r k rest past .done []
      else if on = true ∧ x.mode ≠ .mic ∧ x.mode ≠ .line then s.answered r k rest past .modeConflict []
      else if on = true ∧ x.lock = true then s.answered r k rest past .locked []
      else if on = true ∧ s.sys.psag = true then s.answered r k rest past .supply []
      else (s.after k (x.sequenceStarted (.phantom on) r.slot) []).answered r k rest past .done []))

/-- RECHECK FRONT END at its next input: NOT_OWNER but from the owner or the system slot, BUSY while one is in
progress, and otherwise the recheck group joins the command path, which moves on (R56, R20, R5). -/
def Obligations.RecheckJoinsPath : Prop :=
  ∀ (s : State) (r : Run) (p : Pattern) (k : Input) (rest : List Input)
    (past : List (Input × ResultCode)),
    s.sends r (.recheckFrontEnd p) → s.nextAt r p false k rest past →
    let x := s.inp k
    exec .recheckFrontEnd s = .next (
      if x.owner ≠ some r.slot ∧ r.slot ≠ 0 then s.answered r k rest past .notOwner []
      else if x.recheck then s.answered r k rest past .busy []
      else (s.afterPath k { x with recheck := true, waiting := x.waiting ++ [.recheck] } []).answered
        r k rest past .done [])

/-- How a command path moves on: while a write is outstanding it does not; otherwise the oldest waiting group is
issued, each write with the value of that moment and 4 ms to its timeout, and a step whose target is already G
is withdrawn with the end of its glide (R5, R7, R15, R20, R83). -/
def Obligations.PathMovesOn : Prop :=
  ∀ (v : Env) (x : Inp) (out : List Signal),
    let moved := Ev.pump v ⟨x, out, .done⟩
    (x.outstanding.isSome = true ∨ x.waiting = [] → moved = ⟨x, out, .done⟩) ∧
    (∀ rest, x.outstanding = none → x.waiting = .step :: rest → ∀ g, x.glide = some g →
      moved = if g.target = x.gain then
          Ev.pump v ⟨{ x with glide := none, waiting := rest }, out ++ glideDoneFor v x g.source, .done⟩
        else ⟨{ x with
          outstanding := some
            ⟨.gain (if x.gain < g.target then x.gain + 1 else x.gain - 1), .step g.source, 4⟩
          waiting := rest
          glide := some { g with step := .outstanding } }, out, .done⟩) ∧
    (∀ rest c, x.outstanding = none → x.waiting = .switching :: rest → x.inFlight = some c →
      moved = ⟨{ x with
        outstanding := some ⟨match c.value with
          | .mode m => .mode m (min (maxGain m) x.gain)
          | .phantom on => .phantom on, .switching, 4⟩
        waiting := rest }, out, .done⟩) ∧
    (∀ rest, x.outstanding = none → x.waiting = .recheck :: rest →
      moved = ⟨{ x with
        outstanding := some ⟨match x.seq, x.inFlight with
          | .halted, some ⟨.mode m, _, _⟩ => .mode m (min (maxGain m) x.gain)
          | _, _ => .mode x.mode x.gain, .recheck 0, 4⟩
        waiting := rest }, out, .done⟩)

/-- An acknowledgement with no write outstanding is ignored, and so is the late one of a write that has failed or
was forgotten at a power-on reset (R6, R7, R8, R94; where one may still come beside an outstanding write, a free
value says which came, log entry 21). Otherwise the values of the outstanding write and no others are recorded,
N = 4 (G + F) follows, every tap is computed for the new N, and the input keeps its configuration, ownership, guard
record, pending request and feed (R6, R63, R29, R64, R68, R1). -/
def Obligations.AcknowledgementRecords : Prop :=
  (∀ (s : State) (k : Input), s.ackLate k = true ↔ (s.inp k).unanswered ≠ 0 ∧
    ((s.inp k).outstanding = none ∨ Config.ackIsLate s.freeCount = true)) ∧
  (∀ (s : State) (k : Input), s.ackLate k = true → exec (.frontEndAck k) s = .next { s with
    freeCount := s.freeCount + 1
    inputs := s.inputs.set k { s.inp k with unanswered := (s.inp k).unanswered - 1 } }) ∧
  (∀ (s : State) (k : Input), (s.inp k).outstanding = none → (s.inp k).unanswered = 0 →
    exec (.frontEndAck k) s = .next s) ∧
  (∀ x : Inp, x.net = 4 * ((x.gain : Int) + if x.mode = .line then -20 else 0)) ∧
  (∀ (s : State) (k : Input) (o : Outstanding), (s.inp k).outstanding = some o → s.ackLate k = false →
    ∃ t, exec (.frontEndAck k) s = .next t ∧
      eventFrame k { s with
        freeCount := if (s.inp k).unanswered = 0 then s.freeCount else s.freeCount + 1 } t ∧
      let x := s.inp k
      let y := t.inp k
      (match o.write with
        | .gain g => y.mode = x.mode ∧ y.gain = g ∧ y.phantom = x.phantom
        | .mode m g => y.mode = m ∧ y.gain = g ∧ y.phantom = x.phantom
        | .phantom on => y.mode = x.mode ∧ y.gain = x.gain ∧ y.phantom = on) ∧
      y.taps = x.taps.map (Option.map (ackTap s.sys.align x.net y.net (o.issuer == .step .guard))) ∧
      y.lock = x.lock ∧ y.isProtected = x.isProtected ∧ y.owner = x.owner ∧ y.queue = x.queue ∧
      y.guard = x.guard ∧ y.request = x.request ∧ y.feed = x.feed ∧ y.unanswered = x.unanswered)

/-- The acknowledgement of a glide step: with the gain recorded and the taps computed, the glide ends at its
target with GLIDE_DONE, waits for a busy sequencer, makes the next step ready at rate 0 or starts its step timer;
a step whose glide is gone or replaced ends there; then the path moves on (R84, R85, R68). An acknowledgement that
is not a late one is the outstanding write's (log entry 21). -/
def Obligations.StepAcknowledged : Prop :=
  ∀ (s : State) (k : Input) (gain left : Nat) (source : GlideSource),
    (s.inp k).outstanding = some ⟨.gain gain, .step source, left⟩ → s.ackLate k = false →
    let x := s.inp k
    let u := s.ackJudged k
    let y := x.acked s.sys.align (.gain gain) (source == .guard)
    exec (.frontEndAck k) s = .next (match x.glide with
      | none => u.afterPath k y []
      | some g =>
        let here := { g with step := .absent }
        if g.step ≠ .outstanding then u.afterPath k y []
        else if gain = g.target then u.afterPath k y.withoutGlide (glideDoneFor s.env x g.source)
        else if x.seq ≠ .idle then u.afterPath k { y with glide := some here } []
        else if g.rate = 0 then u.afterPath k { y with
          glide := some { g with step := .ready }, waiting := y.waiting ++ [.step] } []
        else u.afterPath k { y with glide := some { here with timer := some g.rate } } [])

/-- The acknowledgements of the other writes: a switching write takes the sequencer to SETTLING for its settle
time; a start-up or recheck write brings the next write of its group; the third recheck write ends the recheck
and the fault and frees a HALTED sequencer (R8, R15, R16, R20, R21, R22, R89). An acknowledgement that is not a
late one is the outstanding write's (log entry 21). A HALTED sequencer whose change is abandoned enters UNMUTING
with the sequence gate at 0, from which it rises, also where the mute ramp was still running (R35, R74; log entry
14). -/
def Obligations.GroupAcknowledged : Prop :=
  ∀ (s : State) (k : Input) (o : Outstanding), (s.inp k).outstanding = some o → s.ackLate k = false →
    let x := s.inp k
    let u := s.ackJudged k
    let z := (x.acked s.sys.align o.write false).modeClamped s.env x.mode
    let y := z.1
    let settle := fun c : Change => match c.value with
      | .mode _ => 50
      | .phantom true => 100 * s.sys.settle
      | .phantom false => 100 * s.sys.discharge
    (∀ c, o.issuer = .switching → x.seq = .switching → x.inFlight = some c →
      exec (.frontEndAck k) s =
        .next (u.afterPath k { y with seq := .settling, settleLeft := some (settle c) } z.2)) ∧
    (o.issuer = .recheck 0 → exec (.frontEndAck k) s = .next (match x.seq, x.inFlight with
      | .halted, some ⟨.phantom on, d, false⟩ =>
        if on = true ∧ s.sys.psag = true then
          u.after k { y with
            outstanding := some ⟨.phantom y.phantom, .recheck 1, 4⟩
            inFlight := some ⟨.phantom on, d, true⟩ } (z.2 ++ [.raise .frontend d, .mark d])
        else u.after k { y with outstanding := some ⟨.phantom on, .recheck 1, 4⟩ } z.2
      | _, _ => u.after k { y with outstanding := some ⟨.phantom y.phantom, .recheck 1, 4⟩ } z.2)) ∧
    (o.issuer = .recheck 1 → exec (.frontEndAck k) s =
      .next (u.after k { y with outstanding := some ⟨.gain y.gain, .recheck 2, 4⟩ } z.2)) ∧
    (o.issuer = .recheck 2 → exec (.frontEndAck k) s =
      .next (let w := { y with recheck := false, fault := false }
        match x.seq, x.inFlight with
        | .halted, some c =>
          if c.abandoned then u.afterPath k w.unmutingFrom z.2
          else u.afterPath k { w with seq := .settling, settleLeft := some (settle c) } z.2
        | _, _ => u.afterPath k w z.2)) ∧
    (o.issuer = .startUp 0 → exec (.frontEndAck k) s =
      .next (u.after k { y with outstanding := some ⟨.phantom false, .startUp 1, 4⟩ } z.2)) ∧
    (o.issuer = .startUp 1 → exec (.frontEndAck k) s = .next (u.afterPath k y z.2))

/-- WRITE FAIL: with no write outstanding, or with one whose 4 ms have not passed, nothing happens (log entry 8). A
write whose 4 ms have passed fails when this command comes (log entry 10) and is unanswered from then on (log entry
21): nothing is recorded, the rest of the group
is dropped, the input enters FAULT, its glide ends with GLIDE_DONE, a MUTING or SWITCHING sequencer goes to
HALTED with its waiting switching write discarded, FRONTEND is raised for the owner and the observers, and the
path moves on (R7, R10, R21, R91). -/
def Obligations.WriteFailureEntersFault : Prop :=
  ∀ (s : State) (k : Input), let x := s.inp k
    ((∀ o, x.outstanding = some o → o.left ≠ 0) → exec (.writeFail k) s = .next s) ∧
    (∀ o, x.outstanding = some o → o.left = 0 →
      let left := match x.glide with
        | some _ => x.waiting.filter (· != .step)
        | none => x.waiting
      let halts := x.seq = .muting ∨ x.seq = .switching
      let done := match x.glide with
        | some g => glideDoneFor s.env x g.source
        | none => []
      exec (.writeFail k) s = .next (s.afterPath k { x with
        outstanding := none
        unanswered := x.unanswered + 1
        recheck := if o.issuer.isRecheck then false else x.recheck
        glide := none
        fault := true
        seq := if halts then .halted else x.seq
        waiting := if halts then left.filter (· != .switching) else left }
        (done ++ x.owner.toList.map (.raise .frontend) ++ s.env.observers.map (.raise .frontend))))

/-- The end of the mute ramp, in MUTING with the sequence gate at 0: a phantom-ON change that meets PSAG is
abandoned, with FRONTEND and a mark for its desk, and any other change goes to SWITCHING with its switching write
on the path (R14, R15, R22, R35, R74). In the other states, and before the gate is at 0, there is no such end and
nothing happens (log entry 8). -/
def Obligations.MuteRampEnds : Prop :=
  ∀ (s : State) (k : Input), let x := s.inp k
    (∀ c, x.seq = .muting → x.seqGate = 0 → x.inFlight = some c →
      exec (.muteRampEnd k) s = .next (
        if c.value = .phantom true ∧ s.sys.psag = true then
          s.after k { x.unmutingFrom with inFlight := some { c with abandoned := true } }
            [.raise .frontend c.desk, .mark c.desk]
        else s.afterPath k { x with seq := .switching, waiting := x.waiting ++ [.switching] } [])) ∧
    (x.seq ≠ .muting ∨ x.seqGate ≠ 0 → exec (.muteRampEnd k) s = .next s)

/-- The end of the unmute ramp, in UNMUTING with the sequence gate at its full count: the sequencer returns to IDLE
and its change is removed; a pending request is removed and judged; and unless that started a sequence, a
STEPPING glide with no step in flight gets one step (R16, R18, R35, R74, R88). In the other states, and before the
gate is full, there is no such end and nothing happens (log entry 8). -/
def Obligations.UnmuteRampEnds : Prop :=
  ∀ (s : State) (k : Input), let x := s.inp k
    let full := if s.sys.rate96 then 960 else 480
    (x.seq ≠ .unmuting ∨ x.seqGate ≠ full → exec (.unmuteRampEnd k) s = .next s) ∧
    (x.seq = .unmuting → x.seqGate = full →
      let y := { x with seq := .idle, inFlight := none, request := none }
      let freed := fun out : List Signal => match x.glide with
        | some g => if g.state = .stepping ∧ g.step = .absent then s.afterPath k (y.stepReady g) out
          else s.after k y out
        | none => s.after k y out
      let dropped := fun d : Slot => [Signal.raise .frontend d, Signal.mark d]
      exec (.unmuteRampEnd k) s = .next (match x.request with
        | none => freed []
        | some ⟨value, d⟩ =>
          if x.owner ≠ some d ∨ x.fault = true then freed (dropped d)
          else match value with
            | .mode m =>
              if m = x.mode then freed []
              else if x.phantom = true ∧ (x.mode = .mic ∨ x.mode = .line) ∧ (m = .inst ∨ m = .off) then
                freed (dropped d)
              else s.after k (y.sequenceStarted (.mode m) d) []
            | .phantom on =>
              if on = x.phantom then freed []
              else if on = true ∧ ((x.mode ≠ .mic ∧ x.mode ≠ .line) ∨ x.lock = true ∨ s.sys.psag = true) then
                freed (dropped d)
              else s.after k (y.sequenceStarted (.phantom on) d) []))

/-- The expiries of the settle, step and window timers and the end of the GLIDE_DONE pulse window, each with its
effect where its timer has no time left, and with none elsewhere (R16, R85, R87, R98, R138; log entry 8; that
nothing forces an expiry that is due is log entry 10). The settle timer's expiry enters UNMUTING with the sequence
gate at 0, from which it rises (R35, R74; log entry 14). -/
def Obligations.TimersExpire : Prop :=
  (∀ (s : State) (k : Input), exec (.settleTimerExpiry k) s = .next (
    if (s.inp k).seq = .settling ∧ (s.inp k).settleLeft = some 0 then
      s.after k (s.inp k).unmutingFrom [] else s)) ∧
  (∀ (s : State) (k : Input), exec (.stepTimerExpiry k) s = .next (match (s.inp k).glide with
    | some g =>
      if g.timer ≠ some 0 then s
      else if (s.inp k).seq = .idle then s.afterPath k ((s.inp k).stepReady g) []
      else s.after k { s.inp k with glide := some { g with timer := none } } []
    | none => s)) ∧
  (∀ (s : State) (k : Input), exec (.windowExpiry k) s = .next (
    if (s.inp k).guard.timer = some 0 then
      s.after k { s.inp k with guard := { (s.inp k).guard with count := 0, timer := none } } [] else s)) ∧
  (∀ (s : State) (d : Slot), exec (.glideDonePulseEnd d) s = .next (
    if (s.slot d).pulse = some 0 then { s with slots := s.slots.set d { s.slot d with pulse := none } } else s))

/-! ## The overload guard -/

/-- A clip: ignored but under policy REPORT or BACKOFF, in IDLE, in a mode other than OFF; counted, with the
window started; and at the threshold the outcome recorded, a back-off carried out, and OVERLOAD and the mark
given to every tap holder and observer (R97, R99, R100, R101, R92; the reference in R101 is read by log entry
19). -/
def Obligations.ClipCountedToThreshold : Prop :=
  ∀ (s : State) (k : Input), let x := s.inp k
    let g := x.guard
    let counts := g.policy ≠ .off ∧ x.seq = .idle ∧ x.mode ≠ .off
    let count := min 15 (g.count + 1)
    let told := (List.finRange 6).filter fun d => x.holds d || (s.slot d).observes
    let tell := told.map (.raise .overload) ++ told.map .mark
    let noted := fun o : GuardOutcome => { x with guard := { g with count := 0, timer := none, last := o } }
    (¬ counts → exec (.clipIndication k) s = .next s) ∧
    (counts → count < g.threshold → exec (.clipIndication k) s = .next (s.after k { x with
      guard := { g with count := count, timer := some (g.timer.getD (250 * g.window)) } } [])) ∧
    (counts → g.threshold ≤ count → g.policy = .report →
      exec (.clipIndication k) s = .next (s.after k (noted .reported) tell)) ∧
    (counts → g.threshold ≤ count → g.policy = .backoff → x.fault = true →
      exec (.clipIndication k) s = .next (s.after k (noted .inFault) tell)) ∧
    (counts → g.threshold ≤ count → g.policy = .backoff → x.fault = false → x.gain = 0 →
      exec (.clipIndication k) s = .next (s.after k (noted .atFloor) tell)) ∧
    (counts → g.threshold ≤ count → g.policy = .backoff → x.fault = false → x.gain ≠ 0 →
      let target := x.gain - g.backStep
      let reference := match x.glide with
        | some h => if h.source = .guard then (h.staged.map Retarget.target).getD h.target else x.gain
        | none => x.gain
      let step := match x.glide with
        | some h => h.step
        | none => .absent
      let y := noted .backedOff
      let y := { y with
        guard := { y.guard with total := min 60 (g.total + (reference - target)) }
        glide := some ⟨target, 2, .guard, .stepping, step, none, none⟩ }
      exec (.clipIndication k) s = .next (
        if step = .absent then
          let e := Ev.pump s.env ⟨y.stepReady ⟨target, 2, .guard, .stepping, .absent, none, none⟩, [], .done⟩
          s.after k e.inp (e.out ++ tell)
        else s.after k y tell))

/-- CONFIGURE INPUT at its next input: the lock judged first and refusing the whole with PHANTOM_ON, then
the settings carried, clamped into their ranges; a new policy, threshold or window clears the count and stops
the window (R3, R96; a lock already set is log entry 16). -/
def Obligations.ConfigureInputApplies : Prop :=
  ∀ (s : State) (r : Run) (p : Pattern) (c : InputConfig) (k : Input) (rest : List Input)
    (past : List (Input × ResultCode)),
    s.sends r (.configureInput p c) → s.nextAt r p false k rest past →
    let x := s.inp k
    let g := x.guard
    let within := fun (lo hi old : Nat) (b : Option Byte) => match b with
      | some v => max lo (min hi v.toNat)
      | none => old
    let kept := fun (lo hi : Nat) (b : Option Byte) => ∀ v ∈ b, lo ≤ v.toNat ∧ v.toNat ≤ hi
    let policy := c.policy.getD g.policy
    let threshold := within 1 15 g.threshold c.threshold
    let window := within 1 16 g.window c.window
    let restarts := policy ≠ g.policy ∨ threshold ≠ g.threshold ∨ window ≠ g.window
    exec .configureInput s = .next (
      if c.lock = some true ∧ x.lock = false ∧ (x.phantom = true ∨ x.seq ≠ .idle) then
        s.answered r k rest past .phantomOn []
      else (s.after k { x with
          lock := c.lock.getD x.lock
          isProtected := c.isProtected.getD x.isProtected
          guard := { g with
            policy := policy, threshold := threshold, window := window
            backStep := within 1 6 g.backStep c.backStep
            count := if restarts then 0 else g.count
            timer := if restarts then none else g.timer } } []).answered r k rest past
        (if kept 1 15 c.threshold ∧ kept 1 16 c.window ∧ kept 1 6 c.backStep then .done else .clamped) [])


/-! ## Reading -/

/-- READ INPUT at its input: DONE with the 32 bytes of the input image, and the sender's own mark cleared
(R132, R136, R153). The bits that no field names, and those of a field that is absent, are free (log
entries 5 and 20). -/
def Obligations.ReadInputShowsRecord : Prop :=
  ∀ (s : State) (r : Run) (p : Pattern) (k : Input) (rest : List Input)
    (past : List (Input × ResultCode)),
    s.sends r (.readInput p) → s.nextAt r p true k rest past →
    let x := s.inp k
    let flag := fun (b : Bool) (v : Byte) => if b then v else 0
    let kind := fun v : FrontValue => match v with
      | .mode _ => 0
      | .phantom _ => 1
    let value := fun v : FrontValue => match v with
      | .mode .off | .phantom false => 0
      | .mode .mic | .phantom true => 1
      | .mode .line => 2
      | .mode .inst => 3
    ∃ image : List Byte,
      exec .readInput s = .next ({ s with
        freeCount := s.freeCount + 32
        slots := s.slots.set r.slot { s.slot r.slot with
          marks := (s.slot r.slot).marks.set k false } }.answered r k rest past .done image) ∧
      image.length = 32 ∧ shows image 0 0xFF (BitVec.ofNat 8 k) ∧
      shows image 1 0x03 (match x.mode with
        | .off => 0
        | .mic => 1
        | .line => 2
        | .inst => 3) ∧
      shows image 1 0x04 (flag x.phantom 0x04) ∧ shows image 1 0x08 (flag x.lock 0x08) ∧
      shows image 1 0x10 (flag x.isProtected 0x10) ∧ shows image 1 0x20 (flag x.fault 0x20) ∧
      shows image 1 0x40 (flag x.recheck 0x40) ∧
      shows image 2 0xFF (BitVec.ofNat 8 x.gain) ∧
      shows image 3 0xFF (BitVec.ofInt 8 (if x.mode = .line then -20 else 0)) ∧
      (image.drop 4).take 2 = bytesOf16 (BitVec.ofInt 16 x.net) ∧
      shows image 6 0x07 (match x.seq with
        | .idle => 0
        | .muting => 1
        | .switching => 2
        | .settling => 3
        | .unmuting => 4
        | .halted => 5) ∧
      shows image 6 0x10 (flag x.inFlight.isSome 0x10) ∧
      shows image 6 0x20 (flag (x.inFlight.any (·.abandoned)) 0x20) ∧
      (∀ c, x.inFlight = some c →
        shows image 7 0xF3 (BitVec.ofNat 8 (128 * kind c.value + 16 * c.desk.val + value c.value))) ∧
      shows image 8 0x80 (flag x.request.isSome 0x80) ∧
      (∀ q, x.request = some q →
        shows image 8 0x7B (BitVec.ofNat 8 (64 * kind q.value + 8 * q.desk.val + value q.value))) ∧
      shows image 9 0x80 (flag x.owner.isSome 0x80) ∧
      (∀ d, x.owner = some d → shows image 9 0x07 (BitVec.ofNat 8 d)) ∧
      shows image 10 0xFF (BitVec.ofNat 8 x.queue.length) ∧
      (∀ i, i < 5 → ∀ d, x.queue[i]? = some d →
        shows image (11 + i) 0xF0 (BitVec.ofNat 8 (16 * (s.slot d).rank)) ∧
        shows image (11 + i) 0x07 (BitVec.ofNat 8 d)) ∧
      (∀ i, i < 5 → x.queue.length ≤ i → shows image (11 + i) 0xFF 0) ∧
      (∀ d : Slot, shows image 16 (BitVec.ofNat 8 (2 ^ d.val))
        (flag (x.holds d) (BitVec.ofNat 8 (2 ^ d.val)))) ∧
      (image.drop 17).take 2 = bytesOf16 (BitVec.ofInt 16 (match x.owner.bind x.tap with
        | some t => x.net + t.trim
        | none => 0)) ∧
      shows image 19 0x80 (flag x.glide.isSome 0x80) ∧
      (∀ g, x.glide = some g →
        shows image 19 0x40 (flag (g.source == .guard) 0x40) ∧
        shows image 19 0x20 (flag (g.state == .stepping) 0x20) ∧
        shows image 19 0x10 (flag (g.step != .absent) 0x10) ∧
        shows image 19 0x08 (flag g.staged.isSome 0x08) ∧
        shows image 20 0xFF (BitVec.ofNat 8 g.target) ∧ shows image 21 0xFF (BitVec.ofNat 8 g.rate) ∧
        (∀ q, g.staged = some q →
          shows image 22 0xFF (BitVec.ofNat 8 q.target) ∧
          shows image 23 0xFF (BitVec.ofNat 8 q.rate))) ∧
      shows image 24 0x03 (match x.guard.policy with
        | .off => 0
        | .report => 1
        | .backoff => 2) ∧
      shows image 24 0x70 (match x.guard.last with
        | .none => 0x00
        | .reported => 0x10
        | .backedOff => 0x20
        | .atFloor => 0x30
        | .inFault => 0x40) ∧
      image.drop 25 = [x.guard.threshold, x.guard.window, x.guard.backStep, x.guard.count,
          x.guard.total].map (BitVec.ofNat 8) ++
        bytesOf16 (BitVec.ofNat 16 (x.guard.timer.getD 0xFFFF))

/-- READ MARKS, READ DESK and READ SYSTEM STATUS: DONE with the image of their fields, and nothing else changes
(R133, R112, R130, R153). The bits outside the masks are free (log entry 5). -/
def Obligations.ReadImagesShowRecords : Prop :=
  ∀ (s : State) (r : Run),
    let flag := fun (b : Bool) (v : Byte) => if b then v else 0
    let inputs := fun p : Inp → Bool => ((List.finRange 64).filter fun k => p (s.inp k)).length
    let setShown := fun (image : List Byte) (base : Nat) (p : Input → Bool) =>
      ∀ k : Input, ∃ b, image[base + k.val / 8]? = some b ∧ b.getLsbD (k.val % 8) = p k
    (s.sends r .readMarks → ∃ image : List Byte,
      exec .readMarks s =
        .next ({ s with freeCount := s.freeCount + 11 }.gather r ⟨.done, 1, 1, 0, none, image⟩) ∧
      image.length = 11 ∧
      let q := s.slot r.slot
      setShown image 0 (fun k => q.marks.get k) ∧
      shows image 8 0xFF (BitVec.ofNat 8 ((List.finRange 64).filter fun k => q.marks.get k).length) ∧
      shows image 9 0xFF (NoticeSet.toByte ⟨q.responses != [],
        ((List.finRange 64).any fun k => q.marks.get k), q.flags.ownership, q.flags.glideDone,
        q.flags.frontend, q.flags.overload, q.flags.overrun, q.flags.supply⟩) ∧
      shows image 10 0xFF q.enables.toByte) ∧
    (∀ d : Slot, s.sends r (.readDesk (BitVec.ofNat 3 d)) → ∃ image : List Byte,
      exec .readDesk s =
        .next ({ s with freeCount := s.freeCount + 12 }.gather r ⟨.done, 1, 1, 0, none, image⟩) ∧
      image.length = 12 ∧
      let q := s.slot d
      shows image 0 0xFF (BitVec.ofNat 8 d) ∧
      shows image 1 0xFF (match q.state with
        | .closed => 0
        | .opened => 1
        | .absent => 2) ∧
      shows image 2 0xFF (BitVec.ofNat 8 q.rank) ∧ shows image 3 0x0F q.perms.toByte ∧
      shows image 4 0xFF (if d = 0 then 0 else BitVec.ofNat 8 q.timeout) ∧
      (image.drop 5).take 2 =
        bytesOf16 (BitVec.ofNat 16 (if d = 0 then 0xFFFF else q.timer.getD 0xFFFF)) ∧
      shows image 7 0xFF (BitVec.ofNat 8 (inputs fun x => x.holds d)) ∧
      shows image 8 0xFF (BitVec.ofNat 8 (inputs fun x => x.owner == some d)) ∧
      shows image 9 0xFF (BitVec.ofNat 8 (inputs fun x => x.queue.contains d)) ∧
      shows image 10 0xFF (BitVec.ofNat 8 (16 * q.requests.length + q.responses.length)) ∧
      shows image 11 0x01 (flag q.overrun 0x01)) ∧
    (s.sends r .readSystemStatus → ∃ image : List Byte,
      exec .readSystemStatus s =
        .next ({ s with freeCount := s.freeCount + 21 }.gather r ⟨.done, 1, 1, 0, none, image⟩) ∧
      image.length = 21 ∧
      shows image 0 0x01 (flag s.sys.supplyFlag 0x01) ∧ shows image 0 0x02 (flag s.sys.psag 0x02) ∧
      shows image 0 0x04 (flag s.sys.rate96 0x04) ∧
      shows image 1 0xFF (BitVec.ofNat 8 s.sys.settle) ∧
      shows image 2 0xFF (BitVec.ofNat 8 s.sys.discharge) ∧
      shows image 3 0xFF (BitVec.ofNat 8 s.sys.align) ∧
      shows image 4 0xFF (BitVec.ofNat 8 s.executor.resetCount) ∧
      setShown image 5 (fun k => (s.inp k).fault) ∧
      setShown image 13 (fun k => (s.inp k).seq == .halted))

/-- CLEAR MARKS, SET NOTICE ENABLES, CLEAR NOTICES and KEEPALIVE: DONE, with nothing changed but the sender's own
marks, enables, flags and pulse window, and by KEEPALIVE nothing (R136, R139, R138, R132). Naming GLIDE_DONE off
closes its window (log entry 17). -/
def Obligations.NoticeOperationsApply : Prop :=
  ∀ (s : State) (r : Run),
    let q := s.slot r.slot
    let own := fun t : SlotRec => { s with slots := s.slots.set r.slot t }
    let turned := fun (old on off : Bool) => if off then false else old || on
    (∀ (p : Pattern) (k : Input) (rest : List Input) (past : List (Input × ResultCode)),
      s.sends r (.clearMarks p) → s.nextAt r p false k rest past →
      exec .clearMarks s =
        .next ((own { q with marks := q.marks.set k false }).answered r k rest past .done [])) ∧
    (∀ on off : NoticeSet, s.sends r (.setNoticeEnables on off) →
      exec .setNoticeEnables s = .next ((own { q with
        enables := ⟨turned q.enables.response on.response off.response,
          turned q.enables.marks on.marks off.marks,
          turned q.enables.ownership on.ownership off.ownership,
          turned q.enables.glideDone on.glideDone off.glideDone,
          turned q.enables.frontend on.frontend off.frontend,
          turned q.enables.overload on.overload off.overload,
          turned q.enables.overrun on.overrun off.overrun,
          turned q.enables.supply on.supply off.supply⟩
        pulse := if off.glideDone then none else q.pulse }).gather r ⟨.done, 1, 1, 0, none, []⟩)) ∧
    (∀ n : NoticeSet, s.sends r (.clearNotices n) →
      exec .clearNotices s = .next ((own { q with
        flags := ⟨q.flags.ownership && !n.ownership, q.flags.glideDone && !n.glideDone,
          q.flags.frontend && !n.frontend, q.flags.overload && !n.overload,
          q.flags.overrun && !n.overrun, q.flags.supply && !n.supply⟩
        pulse := if n.glideDone ∧ q.flags.glideDone then none else q.pulse }).gather
          r ⟨.done, 1, 1, 0, none, []⟩)) ∧
    (s.sends r .keepalive → exec .keepalive s = .next (s.gather r ⟨.done, 1, 1, 0, none, []⟩))

/-! ## The desk slots -/

/-- CONFIGURE DESK and OPEN DESK: DESK_STATE but for a CLOSED slot of 1..5, whose attributes are written,
clamped, or which becomes OPEN with its presence timer loaded; and a slot number of 6 or 7 is refused DESK_STATE
by every desk operation (R108, R109, R106, R126). -/
def Obligations.DeskConfiguredAndOpened : Prop :=
  ∀ (s : State) (r : Run),
    let refused : OpResult := ⟨.deskState, 1, 0, 1, none, []⟩
    let whole : OpResult := ⟨.deskState, 0, 0, 0, none, []⟩
    let within := fun (lo hi old : Nat) (b : Option Byte) => match b with
      | some v => max lo (min hi v.toNat)
      | none => old
    let kept := fun (lo hi : Nat) (b : Option Byte) => ∀ v ∈ b, lo ≤ v.toNat ∧ v.toNat ≤ hi
    (∀ (d : Slot) (rank timeout : Option Byte) (perms : Option Perms),
      s.sends r (.configureDesk (BitVec.ofNat 3 d) rank perms timeout) →
      let q := s.slot d
      exec .configureDesk s = .next (
        if d = 0 ∨ q.state ≠ .closed then s.gather r refused
        else State.gather { s with slots := s.slots.set d { q with
            rank := within 1 7 q.rank rank
            perms := perms.getD q.perms
            timeout := within 1 60 q.timeout timeout } } r
          ⟨if kept 1 7 rank ∧ kept 1 60 timeout then .done else .clamped, 1, 1, 0, none, []⟩)) ∧
    (∀ d : Slot, s.sends r (.openDesk (BitVec.ofNat 3 d)) →
      let q := s.slot d
      exec .openDesk s = .next (
        if d = 0 ∨ q.state ≠ .closed then s.gather r refused
        else State.gather { s with slots := s.slots.set d { q with
            state := .opened, timer := some (1000 * q.timeout) } } r ⟨.done, 1, 1, 0, none, []⟩)) ∧
    (∀ n : BitVec 3, 6 ≤ n.toNat →
      (∀ rank perms timeout, s.sends r (.configureDesk n rank perms timeout) →
        exec .configureDesk s = .next (s.gather r whole)) ∧
      (s.sends r (.openDesk n) → exec .openDesk s = .next (s.gather r whole)) ∧
      (s.sends r (.closeDesk n) → exec .closeDesk s = .next (s.gather r whole)) ∧
      (s.sends r (.readDesk n) → exec .readDesk s = .next (s.gather r whole)))

/-- CLOSE DESK: DESK_STATE for slot 0, nothing at a CLOSED slot, and otherwise the teardown: every tap of the slot
retired as by CLOSE TAP, the queues emptied, the notice state and threshold at their reset values, the attributes
kept; OWNERSHIP raised for each incoming owner, and the marks of the other tap holders and of the observers set
(R110, R59, R53, R134). -/
def Obligations.CloseDeskTearsDown : Prop :=
  ∀ (s : State) (r : Run) (d : Slot), s.sends r (.closeDesk (BitVec.ofNat 3 d)) →
    (d = 0 → exec .closeDesk s = .next (s.gather r ⟨.deskState, 1, 0, 1, none, []⟩)) ∧
    (d ≠ 0 → (s.slot d).state = .closed →
      exec .closeDesk s = .next (s.gather r ⟨.done, 1, 1, 0, none, []⟩)) ∧
    (d ≠ 0 → (s.slot d).state ≠ .closed → ∃ t : State,
      exec .closeDesk s = .next (t.gather r ⟨.done, 1, 1, 0, none, []⟩) ∧ restKept s t ∧
      (∀ k, let x := s.inp k
        let left := if x.owner = some d then { x with queue := x.queue.tail }.handedOver x.queue.head?
          else { x with queue := x.queue.filter (· != d) }
        t.inp k = if x.holds d then { left with taps := left.taps.set d none } else x) ∧
      t.slot d = { s.slot d with
        state := .closed, timer := none, requests := [], responses := [], overrun := false
        threshold := 2, marks := .fill 64 false, flags := .clear, pulse := none
        enables := ⟨true, false, false, false, false, false, false, false⟩ } ∧
      ∀ c, c ≠ d → (s.slot c).sameButNotices (t.slot c) ∧ (t.slot c).pulse = (s.slot c).pulse ∧
        (∀ n, (t.slot c).flags.has n = true ↔ (s.slot c).flags.has n = true ∨
          (n = .ownership ∧ (s.slot c).state ≠ .closed ∧
            ∃ k, (s.inp k).holds d = true ∧ (s.inp k).owner = some d ∧
              (s.inp k).queue.head? = some c)) ∧
        (∀ k, (t.slot c).marks.get k = true ↔ (s.slot c).marks.get k = true ∨
          ((s.slot c).state ≠ .closed ∧ (s.inp k).holds d = true ∧
            ((s.inp k).holds c = true ∨ (s.slot c).perms.observer = true))))

/-- The presence timer's expiry at an OPEN slot with no time left: every input it owns handed to its queue head or orphaned, its
places in the claim queues given up, its queues emptied, and the slot ABSENT; marks, flags, enables, overrun flag
and threshold kept but for the OWNERSHIP and the marks that the hand-overs bring (R114, R57, R53, R113). Elsewhere
nothing happens (log entry 8), so a bundle accepted first, which reloads the timer, leaves no expiry and the slot
OPEN (R113; the other order is R115, and that nothing forces an expiry that is due is log entry 10). -/
def Obligations.PresenceExpiryMakesAbsent : Prop :=
  ∀ (s : State) (d : Slot),
    ((s.slot d).state ≠ .opened ∨ (s.slot d).timer ≠ some 0 →
      exec (.presenceTimerExpiry d) s = .next s) ∧
    (∀ (bytes : List Byte) (stray : Fin 8) (t : State), d ≠ 0 → 0 < (s.slot d).timeout →
      exec (.writeBundle d bytes stray) s = .next t → t.port.lastOutcome = .accepted →
      exec (.presenceTimerExpiry d) t = .next t ∧ (t.slot d).state = .opened) ∧
    ((s.slot d).state = .opened → (s.slot d).timer = some 0 →
      ∃ t : State, exec (.presenceTimerExpiry d) s = .next t ∧ restKept s t ∧
      (∀ k, let x := s.inp k
        t.inp k = if x.owner = some d then { x with queue := x.queue.tail }.handedOver x.queue.head?
          else { x with queue := x.queue.filter (· != d) }) ∧
      SlotRec.sameButNotices
        { s.slot d with state := .absent, timer := none, requests := [], responses := [] } (t.slot d) ∧
      (∀ c, c ≠ d → (s.slot c).sameButNotices (t.slot c)) ∧
      ∀ c, (t.slot c).pulse = (s.slot c).pulse ∧
        (∀ n, (t.slot c).flags.has n = true ↔ (s.slot c).flags.has n = true ∨
          (n = .ownership ∧ (s.slot c).state ≠ .closed ∧
            ∃ k, (s.inp k).owner = some d ∧ (c = d ∨ (s.inp k).queue.head? = some c))) ∧
        (∀ k, (t.slot c).marks.get k = true ↔ (s.slot c).marks.get k = true ∨
          ((s.slot c).state ≠ .closed ∧ ((s.inp k).owner = some d ∨ d ∈ (s.inp k).queue) ∧
            ((s.inp k).holds c = true ∨ (s.slot c).perms.observer = true))))

/-! ## The system -/

/-- SET TIMING, CLEAR SUPPLY and CONTROL RESET as operations: the timings carried and clamped, the supply flag
cleared whatever PSAG is, and a control reset requested but not carried out (R129, R140, R131). -/
def Obligations.SystemSettingsApply : Prop :=
  ∀ (s : State) (r : Run),
    let within := fun (lo hi old : Nat) (b : Option Byte) => match b with
      | some v => max lo (min hi v.toNat)
      | none => old
    let kept := fun (lo hi : Nat) (b : Option Byte) => ∀ v ∈ b, lo ≤ v.toNat ∧ v.toNat ≤ hi
    (∀ settle discharge align : Option Byte, s.sends r (.setTiming settle discharge align) →
      exec .setTiming s = .next (State.gather { s with sys := { s.sys with
          settle := within 1 30 s.sys.settle settle
          discharge := within 5 50 s.sys.discharge discharge
          align := within 0 63 s.sys.align align } } r
        ⟨if kept 1 30 settle ∧ kept 5 50 discharge ∧ kept 0 63 align then .done else .clamped,
          1, 1, 0, none, []⟩)) ∧
    (s.sends r .clearSupply → exec .clearSupply s =
      .next (State.gather { s with sys := { s.sys with supplyFlag := false } } r
        ⟨.done, 1, 1, 0, none, []⟩)) ∧
    (s.sends r .controlReset → exec .controlReset s =
      .next (State.gather { s with executor := { s.executor with resetRequested := true } } r
        ⟨.done, 1, 1, 0, none, []⟩))

/-- The assertion of CRST, at once or for the end of the bundle, and of PSAG, with its deassertion (R116, R22);
and what a control reset changes in every record (R9, R39, R60, R93, R104, R117, R122, R142). -/
def Obligations.ResetAndSupplyPins : Prop :=
  ∀ s : State,
    (exec .crstAssert s = .next (if s.executor.run.isSome then
        { s with executor := { s.executor with resetRequested := true } } else s.controlReset)) ∧
    (exec .psagAssert s = .next (if s.sys.psag then s else { s with
        sys := { s.sys with psag := true, supplyFlag := true }
        slots := s.slots.set 0 (if (s.slot 0).state = .closed then s.slot 0
          else { s.slot 0 with flags := { (s.slot 0).flags with supply := true } }) })) ∧
    (exec .psagDeassert s = .next { s with sys := { s.sys with psag := false } }) ∧
    let t := s.controlReset
    (∀ k, let x := s.inp k
      t.inp k = { x with
        request := none, owner := none, queue := [], glide := none
        waiting := x.waiting.filter (· != .step)
        guard := { x.guard with count := 0, timer := none }
        taps := .ofFn fun d => (x.tap d).map fun tap => if x.owner = some d then
          { tap with role := .tracking, desired := some (x.net + tap.trim) } else tap }) ∧
    (∀ d, let r := s.slot d
      let q := t.slot d
      (∀ k, q.marks.get k = true ↔ r.marks.get k = true ∨
        (r.state ≠ .closed ∧ ((s.inp k).holds d = true ∨ r.perms.observer = true))) ∧
      q = { (if d = 0 ∨ r.state = .closed then r
          else { r with state := .absent, timer := none, requests := [], responses := [] }) with
        flags := .clear, pulse := none, marks := q.marks }) ∧
    t.executor = { s.executor with
      resetRequested := false, resetCount := min 255 (s.executor.resetCount + 1) } ∧
    t.sys = s.sys ∧ t.port = s.port ∧ t.freeCount = s.freeCount ∧ t.pending = s.pending

/-! ## The feed mixer -/

/-- The release of an aligned change whose delay has run down: it becomes the trim in force, a crossfade starts from
the applied coefficient as it stands, and the changes made before it are discarded (R36, R37, R73). A converter
sample: the changes whose delay has run down are released, the last made of them in force; then gates and
crossfades move by one sample and the delays run, and each channel's feed sample is formed from the values of that
sample, exactly, and rounded once to the nearest integer, ties away from zero (R34 to R36, R73, R74, R75). Of
this, log entry 8 has the release of a change that is not waiting, or whose delay has not run down, do nothing; 10
has a release that is due wait for its command or the next sample; 13 has releases and moves come before the
sample; and 20 has the delays run down at samples. -/
def Obligations.FeedMixerForms : Prop :=
  (∀ (s : State) (d : Slot) (k : Input) (n : Nat),
    exec (.alignedChangeRelease d k n) s = .next (match (s.inp k).tap d with
      | none => s
      | some t => match t.waiting[n]? with
        | none => s
        | some c => if c.left ≠ 0 then s else { s with inputs := s.inputs.set k { s.inp k with
            taps := (s.inp k).taps.set d (some { t with
              inForce := c.trim, fade := some ⟨t.coef, 0⟩, waiting := t.waiting.drop (n + 1) }) } })) ∧
  (∀ t : Tap, ((∀ c ∈ t.waiting, c.left ≠ 0) → t.releaseDue = t) ∧
    ∀ earlier c later, t.waiting = earlier ++ c :: later → c.left = 0 → (∀ e ∈ later, e.left ≠ 0) →
      t.releaseDue = { t with inForce := c.trim, fade := some ⟨t.coef, 0⟩, waiting := later }) ∧
  (∀ (s : State) (k : Input) (v : BitVec 24),
    let x := s.inp k
    let full : Nat := if s.sys.rate96 then 960 else 480
    let fade : Nat := if s.sys.rate96 then 480 else 240
    let moved := fun (rises : Bool) (n : Nat) => if rises then min full (n + 1) else n - 1
    ∃ y : Inp, exec (.converterSample k v) s = .next { s with inputs := s.inputs.set k y } ∧
      y = { x with taps := y.taps, seqGate := y.seqGate, feed := y.feed } ∧
      y.seqGate = moved (x.seq == .idle || x.seq == .unmuting) x.seqGate ∧
      (∀ d, y.tap d = (x.tap d).map fun u => let t := u.releaseDue; { t with
        gate := moved (!t.mute) t.gate
        coef := match t.fade with
          | some f => roundDiv (f.start * fade + (coefficient t.inForce - f.start) * (f.done + 1)) fade
          | none => t.coef
        fade := t.fade.bind fun f => if f.done + 1 < fade then some ⟨f.start, f.done + 1⟩ else none
        waiting := t.waiting.map fun c => ⟨c.trim, c.left - 1⟩ }) ∧
      (∀ d, y.feed.get d = match y.tap d with
        | none => 0
        | some t => if x.mode = .off then 0 else
          roundDiv (v.toInt * t.coef * t.gate * y.seqGate) (2 ^ 24 * full * full))) ∧
  (∀ (num : Int) (den : Nat), 0 < den →
    2 * (den * roundDiv num den - num).natAbs ≤ den ∧
    (2 * (den * roundDiv num den - num).natAbs = den →
      num.natAbs < ((den : Int) * roundDiv num den).natAbs))

/-- The coefficient table: every entry is the integer nearest to 2^28 × 10^(T/80), halves rounded up (its 80th
power and those of its two neighbours halfway say so), the table rises strictly with neighbours more than 78,000
apart, and the four entries that R72 lists. -/
def Obligations.CoefficientTableIsNearest : Prop :=
  (∀ t : Int, -160 ≤ t → t ≤ 80 → ∃ c : Nat, coefficient t = c ∧ 0 < c ∧
    (2 * c - 1) ^ 80 * 10 ^ 160 ≤ 2 ^ 2320 * 10 ^ (t + 160).toNat ∧
    2 ^ 2320 * 10 ^ (t + 160).toNat < (2 * c + 1) ^ 80 * 10 ^ 160) ∧
  (∀ t : Int, -160 ≤ t → t < 80 → coefficient t + 78000 < coefficient (t + 1)) ∧
  coefficient 80 = 2684354560 ∧ coefficient 0 = 268435456 ∧
  coefficient (-80) = 26843546 ∧ coefficient (-160) = 2684355

/-! ## What every step keeps -/

/-- Every step keeps every gain in the range of its mode (R2, R71, R77), and with it the laws of every tap: role,
desired level and trim agree at the net level as it stands (R23, R29, R64, R65). -/
def Obligations.GainsAndTapsKept : Prop :=
  (∀ s t : State, s.GainsInRange → step s = .next t → t.GainsInRange) ∧
  (∀ s t : State, s.GainsInRange → s.TapsLawful → step s = .next t → t.TapsLawful)

/-- Every step keeps the laws of ownership: at most one owner, whose tap alone has role OWNER and whose slot is
OPEN; a claim queue only beside an owner, of OPEN slots that hold taps, in falling order of rank, each once; and no
owner's glide without an owner (R41, R42, R49, R54). -/
def Obligations.OwnershipKept : Prop :=
  ∀ s t : State, s.OwnershipLawful → step s = .next t → t.OwnershipLawful

/-- Every step keeps the laws of the slots: slot 0 as R106 fixes it, the ranges of R105, a timer that runs exactly
while a desk is OPEN, a queue threshold of 0..7, and nothing held by a CLOSED slot (R105, R106, R111, R113, R138,
R148). -/
def Obligations.SlotsKept : Prop :=
  ∀ s t : State, s.SlotsLawful → step s = .next t → t.SlotsLawful

/-- Every step keeps what sequencers, command paths and glides agree on (R5, R10, R14, R16, R17, R20, R77, R83,
R87, R91); and beside that, phantom power is ON only in MIC or LINE and without phantom lock (R4). -/
def Obligations.FrontEndAndPhantomKept : Prop :=
  (∀ s t : State, s.FrontEndLawful → step s = .next t → t.FrontEndLawful) ∧
  (∀ s t : State, s.FrontEndLawful → s.PhantomSafe → step s = .next t → t.PhantomSafe) ∧
  (∀ s : State, s.PhantomSafe → ∀ k, (s.inp k).phantom = true →
    ((s.inp k).mode = .mic ∨ (s.inp k).mode = .line) ∧ (s.inp k).lock = false)

/-- Every feed sample lies within −1,342,177,280..+1,342,177,280 (R76): every step keeps it, with the trims, gates
and coefficients that form samples in their ranges and the sequence gate full in IDLE and at 0 in SWITCHING, and the reset state has it; and the bound is reached exactly
by the most negative sample at trim +80 with both gates open, where the largest positive sample is 1,342,177,120. -/
def Obligations.FeedSamplesBounded : Prop :=
  (∀ s t : State, s.FeedLawful → step s = .next t → t.FeedLawful) ∧ State.reset.FeedLawful ∧
  (∀ s : State, s.FeedLawful → ∀ k d,
    -1342177280 ≤ (s.inp k).feed.get d ∧ (s.inp k).feed.get d ≤ 1342177280) ∧
  (∀ n : Nat, 0 < n → feedSample (-8388608) (coefficient 80) n n n = -1342177280 ∧
    feedSample 8388607 (coefficient 80) n n n = 1342177120)

/-- Every step keeps the bounds of the port's queues, with room for the response of the bundle in execution; the
bundles and results as a frame and a response can carry them; and the guard records and system settings in their
ranges (R95, R97, R98, R105, R119, R120, R126, R129, R144 to R146). -/
def Obligations.QueuesAndSettingsKept : Prop :=
  (∀ s t : State, s.QueuesBounded → step s = .next t → t.QueuesBounded) ∧
  (∀ s t : State, s.BundlesLawful → step s = .next t → t.BundlesLawful) ∧
  (∀ s t : State, s.GuardsLawful → step s = .next t → t.GuardsLawful) ∧
  (∀ s t : State, s.SystemLawful → step s = .next t → t.SystemLawful)

/-- The reset state meets every law that the steps keep. -/
def Obligations.ResetIsLawful : Prop :=
  State.reset.GainsInRange ∧ State.reset.TapsLawful ∧ State.reset.OwnershipLawful ∧
  State.reset.SlotsLawful ∧ State.reset.FrontEndLawful ∧ State.reset.PhantomSafe ∧
  State.reset.FeedLawful ∧ State.reset.QueuesBounded ∧ State.reset.BundlesLawful ∧
  State.reset.GuardsLawful ∧ State.reset.SystemLawful
end

