-- ==== Sys2Proof/Laws/State.lean ====
section
/-! SUPPORT. One lemma for each field and each update of the state, so that no proof unfolds an
update. -/

namespace Sys2Proof.Machine

/-! ## Inputs -/

@[simp] theorem State.setInp_inp_self (s : State) (k : Input) (x : Inp) : (s.setInp k x).inp k = x := by
  simp [State.setInp, State.inp]

theorem State.setInp_inp_ne (s : State) {k j : Input} (x : Inp) (h : j ≠ k) :
    (s.setInp k x).inp j = s.inp j := by
  simp [State.setInp, State.inp, h]

theorem State.setInp_inp (s : State) (k j : Input) (x : Inp) :
    (s.setInp k x).inp j = if j = k then x else s.inp j := by
  simp [State.setInp, State.inp, Table.get_set]

@[simp] theorem State.setInp_slots (s : State) (k : Input) (x : Inp) :
    (s.setInp k x).slots = s.slots := rfl
@[simp] theorem State.setInp_slot (s : State) (k : Input) (x : Inp) (d : Slot) :
    (s.setInp k x).slot d = s.slot d := rfl
@[simp] theorem State.setInp_executor (s : State) (k : Input) (x : Inp) :
    (s.setInp k x).executor = s.executor := rfl
@[simp] theorem State.setInp_sys (s : State) (k : Input) (x : Inp) : (s.setInp k x).sys = s.sys := rfl
@[simp] theorem State.setInp_port (s : State) (k : Input) (x : Inp) :
    (s.setInp k x).port = s.port := rfl
@[simp] theorem State.setInp_freeCount (s : State) (k : Input) (x : Inp) :
    (s.setInp k x).freeCount = s.freeCount := rfl
@[simp] theorem State.setInp_pending (s : State) (k : Input) (x : Inp) :
    (s.setInp k x).pending = s.pending := rfl
@[simp] theorem State.setInp_env (s : State) (k : Input) (x : Inp) : (s.setInp k x).env = s.env := rfl
@[simp] theorem State.setInp_same (s : State) (k : Input) : s.setInp k (s.inp k) = s := by
  simp [State.setInp, State.inp]

/-! ## Slots -/

@[simp] theorem State.setSlot_slot_self (s : State) (d : Slot) (r : SlotRec) :
    (s.setSlot d r).slot d = r := by
  simp [State.setSlot, State.slot]

theorem State.setSlot_slot (s : State) (d c : Slot) (r : SlotRec) :
    (s.setSlot d r).slot c = if c = d then r else s.slot c := by
  simp [State.setSlot, State.slot, Table.get_set]

@[simp] theorem State.modSlot_slot_self (s : State) (d : Slot) (f : SlotRec → SlotRec) :
    (s.modSlot d f).slot d = f (s.slot d) := by
  simp [State.modSlot]

theorem State.modSlot_slot (s : State) (d c : Slot) (f : SlotRec → SlotRec) :
    (s.modSlot d f).slot c = if c = d then f (s.slot c) else s.slot c := by
  unfold State.modSlot
  rw [State.setSlot_slot]
  split <;> simp_all

theorem State.modSlot_slot_ne (s : State) {d c : Slot} (f : SlotRec → SlotRec) (h : c ≠ d) :
    (s.modSlot d f).slot c = s.slot c := by
  simp [State.modSlot_slot, h]

@[simp] theorem State.modSlot_inputs (s : State) (d : Slot) (f : SlotRec → SlotRec) :
    (s.modSlot d f).inputs = s.inputs := rfl
@[simp] theorem State.modSlot_inp (s : State) (d : Slot) (f : SlotRec → SlotRec) (k : Input) :
    (s.modSlot d f).inp k = s.inp k := rfl
@[simp] theorem State.modSlot_executor (s : State) (d : Slot) (f : SlotRec → SlotRec) :
    (s.modSlot d f).executor = s.executor := rfl
@[simp] theorem State.modSlot_sys (s : State) (d : Slot) (f : SlotRec → SlotRec) :
    (s.modSlot d f).sys = s.sys := rfl
@[simp] theorem State.modSlot_port (s : State) (d : Slot) (f : SlotRec → SlotRec) :
    (s.modSlot d f).port = s.port := rfl
@[simp] theorem State.modSlot_freeCount (s : State) (d : Slot) (f : SlotRec → SlotRec) :
    (s.modSlot d f).freeCount = s.freeCount := rfl
@[simp] theorem State.modSlot_pending (s : State) (d : Slot) (f : SlotRec → SlotRec) :
    (s.modSlot d f).pending = s.pending := rfl

/-! ## The executor -/

@[simp] theorem State.setRun_run (s : State) (r : Option Run) : (s.setRun r).executor.run = r := rfl
@[simp] theorem State.setRun_pointer (s : State) (r : Option Run) :
    (s.setRun r).executor.pointer = s.executor.pointer := rfl
@[simp] theorem State.setRun_resetRequested (s : State) (r : Option Run) :
    (s.setRun r).executor.resetRequested = s.executor.resetRequested := rfl
@[simp] theorem State.setRun_resetCount (s : State) (r : Option Run) :
    (s.setRun r).executor.resetCount = s.executor.resetCount := rfl
@[simp] theorem State.setRun_inputs (s : State) (r : Option Run) :
    (s.setRun r).inputs = s.inputs := rfl
@[simp] theorem State.setRun_inp (s : State) (r : Option Run) (k : Input) :
    (s.setRun r).inp k = s.inp k := rfl
@[simp] theorem State.setRun_slots (s : State) (r : Option Run) : (s.setRun r).slots = s.slots := rfl
@[simp] theorem State.setRun_slot (s : State) (r : Option Run) (d : Slot) :
    (s.setRun r).slot d = s.slot d := rfl
@[simp] theorem State.setRun_sys (s : State) (r : Option Run) : (s.setRun r).sys = s.sys := rfl
@[simp] theorem State.setRun_port (s : State) (r : Option Run) : (s.setRun r).port = s.port := rfl
@[simp] theorem State.setRun_freeCount (s : State) (r : Option Run) :
    (s.setRun r).freeCount = s.freeCount := rfl
@[simp] theorem State.setRun_pending (s : State) (r : Option Run) :
    (s.setRun r).pending = s.pending := rfl

/-! ## The port and the images -/

@[simp] theorem State.shiftOut_inputs (s : State) (bs : List Byte) :
    (s.shiftOut bs).inputs = s.inputs := rfl
@[simp] theorem State.shiftOut_inp (s : State) (bs : List Byte) (k : Input) :
    (s.shiftOut bs).inp k = s.inp k := rfl
@[simp] theorem State.shiftOut_slots (s : State) (bs : List Byte) :
    (s.shiftOut bs).slots = s.slots := rfl
@[simp] theorem State.shiftOut_slot (s : State) (bs : List Byte) (d : Slot) :
    (s.shiftOut bs).slot d = s.slot d := rfl
@[simp] theorem State.shiftOut_executor (s : State) (bs : List Byte) :
    (s.shiftOut bs).executor = s.executor := rfl
@[simp] theorem State.shiftOut_sys (s : State) (bs : List Byte) : (s.shiftOut bs).sys = s.sys := rfl
@[simp] theorem State.shiftOut_sdo (s : State) (bs : List Byte) :
    (s.shiftOut bs).port.sdo = s.summaryByte :: bs := rfl
@[simp] theorem State.shiftOut_error (s : State) (bs : List Byte) :
    (s.shiftOut bs).port.error = s.port.error := rfl
@[simp] theorem State.shiftOut_lastOutcome (s : State) (bs : List Byte) :
    (s.shiftOut bs).port.lastOutcome = s.port.lastOutcome := rfl
@[simp] theorem State.shiftOut_lastSlot (s : State) (bs : List Byte) :
    (s.shiftOut bs).port.lastSlot = s.port.lastSlot := rfl
@[simp] theorem State.shiftOut_freeCount (s : State) (bs : List Byte) :
    (s.shiftOut bs).freeCount = s.freeCount := rfl
@[simp] theorem State.shiftOut_pending (s : State) (bs : List Byte) :
    (s.shiftOut bs).pending = s.pending := rfl

@[simp] theorem State.takeImage_inputs (s : State) (bs : List ImageByte) :
    (s.takeImage bs).1.inputs = s.inputs := rfl
@[simp] theorem State.takeImage_inp (s : State) (bs : List ImageByte) (k : Input) :
    (s.takeImage bs).1.inp k = s.inp k := rfl
@[simp] theorem State.takeImage_slots (s : State) (bs : List ImageByte) :
    (s.takeImage bs).1.slots = s.slots := rfl
@[simp] theorem State.takeImage_slot (s : State) (bs : List ImageByte) (d : Slot) :
    (s.takeImage bs).1.slot d = s.slot d := rfl
@[simp] theorem State.takeImage_executor (s : State) (bs : List ImageByte) :
    (s.takeImage bs).1.executor = s.executor := rfl
@[simp] theorem State.takeImage_sys (s : State) (bs : List ImageByte) :
    (s.takeImage bs).1.sys = s.sys := rfl
@[simp] theorem State.takeImage_port (s : State) (bs : List ImageByte) :
    (s.takeImage bs).1.port = s.port := rfl
@[simp] theorem State.takeImage_pending (s : State) (bs : List ImageByte) :
    (s.takeImage bs).1.pending = s.pending := rfl
@[simp] theorem State.takeImage_freeCount (s : State) (bs : List ImageByte) :
    (s.takeImage bs).1.freeCount = s.freeCount + bs.length := rfl

/-! ## Acknowledgements -/

/-- Judging whether an acknowledgement is late changes nothing but the count of free values. -/
theorem State.ackJudged_eq (s : State) (k : Input) :
    s.ackJudged k = { s with freeCount := (s.ackJudged k).freeCount } := by
  unfold State.ackJudged
  split <;> rfl

@[simp] theorem State.ackJudged_inputs (s : State) (k : Input) : (s.ackJudged k).inputs = s.inputs := by
  rw [State.ackJudged_eq]
@[simp] theorem State.ackJudged_inp (s : State) (k j : Input) : (s.ackJudged k).inp j = s.inp j := by
  rw [State.ackJudged_eq]; rfl
@[simp] theorem State.ackJudged_slots (s : State) (k : Input) : (s.ackJudged k).slots = s.slots := by
  rw [State.ackJudged_eq]
@[simp] theorem State.ackJudged_slot (s : State) (k : Input) (d : Slot) :
    (s.ackJudged k).slot d = s.slot d := by
  rw [State.ackJudged_eq]; rfl
@[simp] theorem State.ackJudged_executor (s : State) (k : Input) :
    (s.ackJudged k).executor = s.executor := by
  rw [State.ackJudged_eq]
@[simp] theorem State.ackJudged_sys (s : State) (k : Input) : (s.ackJudged k).sys = s.sys := by
  rw [State.ackJudged_eq]
@[simp] theorem State.ackJudged_port (s : State) (k : Input) : (s.ackJudged k).port = s.port := by
  rw [State.ackJudged_eq]
@[simp] theorem State.ackJudged_pending (s : State) (k : Input) : (s.ackJudged k).pending = s.pending := by
  rw [State.ackJudged_eq]
@[simp] theorem State.ackJudged_env (s : State) (k : Input) : (s.ackJudged k).env = s.env := by
  rw [State.ackJudged_eq]; rfl

/-! ## Taps -/

@[simp] theorem Inp.setTap_tap_self (x : Inp) (d : Slot) (t : Option Tap) : (x.setTap d t).tap d = t := by
  simp [Inp.setTap, Inp.tap]

theorem Inp.setTap_tap (x : Inp) (d c : Slot) (t : Option Tap) :
    (x.setTap d t).tap c = if c = d then t else x.tap c := by
  simp [Inp.setTap, Inp.tap, Table.get_set]

theorem Inp.modTap_tap (x : Inp) (d c : Slot) (f : Tap → Tap) :
    (x.modTap d f).tap c = if c = d then (x.tap c).map f else x.tap c := by
  unfold Inp.modTap
  rw [Inp.setTap_tap]
  split <;> simp_all

/-! ## Due timers and changes -/

@[simp] theorem isDue_iff {timer : Option Nat} : isDue timer = true ↔ timer = some 0 := by
  simp [isDue]

/-- No change is due exactly when none is found. -/
theorem lastDue_eq_none {w : List Aligned} : lastDue w = none ↔ ∀ c ∈ w, c.left ≠ 0 := by
  induction w with
  | nil => simp [lastDue]
  | cons c rest ih =>
    cases h : lastDue rest with
    | none =>
      have hr := ih.1 h
      simp only [lastDue, h, List.forall_mem_cons]
      split <;> simp_all
    | some x =>
      have : ¬ ∀ c ∈ rest, c.left ≠ 0 := fun hc => by simp [ih.2 hc] at h
      simp [lastDue, h]
      intro _
      simpa using this

/-- The change found is the last one that is due. -/
theorem lastDue_eq_some {w : List Aligned} {c : Aligned} {later : List Aligned} :
    lastDue w = some (c, later) ↔
      c.left = 0 ∧ (∀ e ∈ later, e.left ≠ 0) ∧ ∃ earlier, w = earlier ++ c :: later := by
  induction w with
  | nil => simp [lastDue]
  | cons a rest ih =>
    cases h : lastDue rest with
    | none =>
      have hr := lastDue_eq_none.1 h
      simp only [lastDue, h]
      constructor
      · intro hs
        split at hs
        · obtain ⟨rfl, rfl⟩ := Prod.mk.inj (Option.some.inj hs)
          exact ⟨‹_›, hr, [], rfl⟩
        · cases hs
      · rintro ⟨h0, hl, earlier, he⟩
        cases earlier with
        | nil =>
          obtain ⟨rfl, rfl⟩ := List.cons.inj he
          simp [h0]
        | cons b bs =>
          obtain ⟨-, rfl⟩ := List.cons.inj he
          exact absurd h0 (hr c (by simp))
    | some x =>
      rw [h] at ih
      simp only [lastDue, h, ih]
      constructor
      · rintro ⟨h0, hl, earlier, rfl⟩
        exact ⟨h0, hl, a :: earlier, rfl⟩
      · rintro ⟨h0, hl, earlier, he⟩
        cases earlier with
        | nil =>
          obtain ⟨rfl, rfl⟩ := List.cons.inj he
          rw [lastDue_eq_none.2 hl] at h
          cases h
        | cons b bs =>
          obtain ⟨-, rfl⟩ := List.cons.inj he
          exact ⟨h0, hl, bs, rfl⟩

/-! ## Events -/

@[simp] theorem Ev.mod_inp (f : Inp → Inp) (e : Ev) : (e.mod f).inp = f e.inp := rfl
@[simp] theorem Ev.mod_out (f : Inp → Inp) (e : Ev) : (e.mod f).out = e.out := rfl
@[simp] theorem Ev.mod_code (f : Inp → Inp) (e : Ev) : (e.mod f).code = e.code := rfl
@[simp] theorem Ev.answer_inp (c : ResultCode) (e : Ev) : (e.answer c).inp = e.inp := rfl
@[simp] theorem Ev.answer_out (c : ResultCode) (e : Ev) : (e.answer c).out = e.out := rfl
@[simp] theorem Ev.answer_code (c : ResultCode) (e : Ev) : (e.answer c).code = c := rfl
@[simp] theorem Ev.emit_inp (xs : List Signal) (e : Ev) : (e.emit xs).inp = e.inp := rfl
@[simp] theorem Ev.emit_out (xs : List Signal) (e : Ev) : (e.emit xs).out = e.out ++ xs := rfl
@[simp] theorem Ev.emit_code (xs : List Signal) (e : Ev) : (e.emit xs).code = e.code := rfl
@[simp] theorem Ev.raiseOwner_inp (n : Sticky) (e : Ev) : (e.raiseOwner n).inp = e.inp := rfl
@[simp] theorem Ev.raiseOwner_out (n : Sticky) (e : Ev) :
    (e.raiseOwner n).out = e.out ++ e.inp.owner.toList.map (.raise n) := rfl
@[simp] theorem Ev.raiseObservers_inp (v : Env) (n : Sticky) (e : Ev) :
    (e.raiseObservers v n).inp = e.inp := rfl
@[simp] theorem Ev.raiseObservers_out (v : Env) (n : Sticky) (e : Ev) :
    (e.raiseObservers v n).out = e.out ++ v.observers.map (.raise n) := rfl
@[simp] theorem Ev.tellDesk_inp (d : Slot) (e : Ev) : (e.tellDesk d).inp = e.inp := rfl
@[simp] theorem Ev.tellDesk_out (d : Slot) (e : Ev) :
    (e.tellDesk d).out = e.out ++ [.raise .frontend d, .mark d] := rfl

end Sys2Proof.Machine
end

