-- ==== Sys2Proof/Laws/Events.lean ====
section
/-! SUPPORT. What an event at one input can do to the state: `State.commit`, `State.atInput` and
`State.atInputs`, each said once. -/

namespace Sys2Proof.Machine

/-! ## Slot records under notices and marks -/

theorem SlotRec.sameButNotices_refl (r : SlotRec) : r.sameButNotices r := rfl

theorem SlotRec.sameButNotices_trans {r q p : SlotRec} (h : r.sameButNotices q)
    (h' : q.sameButNotices p) : r.sameButNotices p := by
  unfold SlotRec.sameButNotices at *
  rw [h', h]

theorem SlotRec.raise_sameButNotices (n : Sticky) (r : SlotRec) : r.sameButNotices (r.raise n) := by
  unfold SlotRec.raise
  split <;> rfl

theorem SlotRec.mark_sameButNotices (k : Input) (r : SlotRec) : r.sameButNotices (r.mark k) := by
  unfold SlotRec.mark
  split <;> rfl

@[simp] theorem SlotRec.raise_marks (n : Sticky) (r : SlotRec) : (r.raise n).marks = r.marks := by
  unfold SlotRec.raise
  split <;> rfl

@[simp] theorem SlotRec.mark_flags (k : Input) (r : SlotRec) : (r.mark k).flags = r.flags := by
  unfold SlotRec.mark
  split <;> rfl

@[simp] theorem SlotRec.mark_pulse (k : Input) (r : SlotRec) : (r.mark k).pulse = r.pulse := by
  unfold SlotRec.mark
  split <;> rfl

@[simp] theorem SlotRec.raise_live (n : Sticky) (r : SlotRec) : (r.raise n).live = r.live := by
  rw [SlotRec.raise_sameButNotices n r]; rfl

@[simp] theorem SlotRec.mark_live (k : Input) (r : SlotRec) : (r.mark k).live = r.live := by
  rw [SlotRec.mark_sameButNotices k r]; rfl

theorem SlotRec.sameButNotices_live {r q : SlotRec} (h : r.sameButNotices q) : q.live = r.live := by
  rw [h]; rfl

theorem SlotRec.sameButNotices_observes {r q : SlotRec} (h : r.sameButNotices q) :
    q.observes = r.observes := by
  rw [h]; rfl

theorem SlotRec.mark_marks (k j : Input) (r : SlotRec) :
    (r.mark k).marks.get j = (r.marks.get j || (r.live && decide (j = k))) := by
  unfold SlotRec.mark
  split
  · rename_i h
    rw [Table.get_set]
    split <;> simp_all
  · simp_all

theorem StickyFlags.raise_has (f : StickyFlags) (n m : Sticky) :
    (f.raise n).has m = (f.has m || decide (m = n)) := by
  cases n <;> cases m <;> simp [StickyFlags.raise, StickyFlags.has]

theorem SlotRec.raise_has (n m : Sticky) (r : SlotRec) :
    (r.raise n).flags.has m = (r.flags.has m || (r.live && decide (m = n))) := by
  unfold SlotRec.raise
  split <;> simp_all [StickyFlags.raise_has]

/-! ## Signals -/

@[simp] theorem Signal.at_inputs (k : Input) (s : State) (g : Signal) : (g.at k s).inputs = s.inputs := by
  cases g <;> rfl
@[simp] theorem Signal.at_executor (k : Input) (s : State) (g : Signal) :
    (g.at k s).executor = s.executor := by
  cases g <;> rfl
@[simp] theorem Signal.at_sys (k : Input) (s : State) (g : Signal) : (g.at k s).sys = s.sys := by
  cases g <;> rfl
@[simp] theorem Signal.at_port (k : Input) (s : State) (g : Signal) : (g.at k s).port = s.port := by
  cases g <;> rfl
@[simp] theorem Signal.at_freeCount (k : Input) (s : State) (g : Signal) :
    (g.at k s).freeCount = s.freeCount := by
  cases g <;> rfl
@[simp] theorem Signal.at_pending (k : Input) (s : State) (g : Signal) :
    (g.at k s).pending = s.pending := by
  cases g <;> rfl

/-- What one signal does to a slot. -/
def Signal.on (k : Input) (d : Slot) (r : SlotRec) : Signal → SlotRec
  | .raise n c => if d = c then r.raise n else r
  | .mark c => if d = c then r.mark k else r

theorem Signal.at_slot (k : Input) (s : State) (g : Signal) (d : Slot) :
    (g.at k s).slot d = g.on k d (s.slot d) := by
  cases g <;> simp [Signal.at, Signal.on, State.modSlot_slot]

/-- The signals of an event change nothing but slots, and each slot on its own. -/
theorem Signal.foldl_at (k : Input) (out : List Signal) (s : State) :
    let t := out.foldl (Signal.at k) s
    t.inputs = s.inputs ∧ t.executor = s.executor ∧ t.sys = s.sys ∧ t.port = s.port ∧
      t.freeCount = s.freeCount ∧ t.pending = s.pending ∧
      ∀ d, t.slot d = out.foldl (fun r g => g.on k d r) (s.slot d) := by
  induction out generalizing s with
  | nil => simp
  | cons g out ih =>
    obtain ⟨h1, h2, h3, h4, h5, h6, h7⟩ := ih (g.at k s)
    simp only [List.foldl_cons]
    refine ⟨?_, ?_, ?_, ?_, ?_, ?_, ?_⟩ <;> simp_all [Signal.at_slot]

/-- What the signals of an event do to one slot: marks, sticky flags and pulse window, and nothing
else. -/
theorem Signal.foldl_on (k : Input) (d : Slot) (out : List Signal) (r : SlotRec) :
    let q := out.foldl (fun r g => g.on k d r) r
    r.sameButNotices q ∧
      (∀ j, q.marks.get j = (r.marks.get j || (r.live && decide (j = k) && out.contains (.mark d)))) ∧
      (∀ n, q.flags.has n = (r.flags.has n || (r.live && out.contains (.raise n d)))) ∧
      q.pulse = if r.live = true ∧ .raise .glideDone d ∈ out then some 1 else r.pulse := by
  induction out generalizing r with
  | nil => simp [SlotRec.sameButNotices_refl]
  | cons g out ih =>
    obtain ⟨h1, h2, h3, h4⟩ := ih (g.on k d r)
    simp only [List.foldl_cons]
    cases g with
    | raise n c =>
      by_cases hc : d = c
      · subst hc
        simp only [Signal.on, if_true] at h1 h2 h3 h4 ⊢
        refine ⟨SlotRec.sameButNotices_trans (SlotRec.raise_sameButNotices n r) h1, ?_, ?_, ?_⟩
        · intro j; rw [h2]; simp
        · intro m; rw [h3, SlotRec.raise_has]
          simp only [SlotRec.raise_live, List.contains_cons, Bool.or_assoc]
          by_cases hm : m = n
          · subst hm; cases r.live <;> simp
          · have : (Signal.raise m d == Signal.raise n d) = false := by simp [hm]
            simp [hm, this]
        · rw [h4]
          simp only [SlotRec.raise_live, List.mem_cons, Signal.raise.injEq, and_true]
          by_cases hm : n = .glideDone
          · subst hm; by_cases hl : r.live = true <;> simp [hl, SlotRec.raise]
          · have : ¬ (Sticky.glideDone = n) := fun e => hm e.symm
            by_cases hl : r.live = true <;> simp [hl, SlotRec.raise, hm, this]
      · simp only [Signal.on, hc, if_false] at h1 h2 h3 h4 ⊢
        refine ⟨h1, ?_, ?_, ?_⟩
        · intro j; rw [h2]; simp
        · intro m; rw [h3]
          simp [hc]
        · rw [h4]; simp [hc]
    | mark c =>
      by_cases hc : d = c
      · subst hc
        simp only [Signal.on, if_true] at h1 h2 h3 h4 ⊢
        refine ⟨SlotRec.sameButNotices_trans (SlotRec.mark_sameButNotices k r) h1, ?_, ?_, ?_⟩
        · intro j; rw [h2, SlotRec.mark_marks]
          simp only [SlotRec.mark_live, List.contains_cons]
          cases r.marks.get j <;> cases r.live <;> cases decide (j = k) <;> simp
        · intro m; rw [h3]; simp
        · rw [h4]; simp
      · simp only [Signal.on, hc, if_false] at h1 h2 h3 h4 ⊢
        refine ⟨h1, ?_, ?_, ?_⟩
        · intro j; rw [h2]
          simp [hc]
        · intro m; rw [h3]; simp
        · rw [h4]; simp

/-! ## Commit -/

theorem changeMarks_sameButNotices {r q : SlotRec} (h : r.sameButNotices q) (old new : Inp) (d : Slot) :
    changeMarks old new d q = changeMarks old new d r := by
  simp only [changeMarks, SlotRec.sameButNotices_live h, SlotRec.sameButNotices_observes h]

theorem State.markChanges_slot (s : State) (k : Input) (old : Inp) (d : Slot) :
    (s.markChanges k old).slot d =
      if changeMarks old (s.inp k) d (s.slot d) then (s.slot d).mark k else s.slot d := by
  simp only [State.slot, State.markChanges, Table.get_ofFn]

@[simp] theorem State.markChanges_inp (s : State) (k : Input) (old : Inp) (j : Input) :
    (s.markChanges k old).inp j = s.inp j := rfl

/-- All that an event at one input does: the input's record, marks, sticky flags and pulse windows, and
nothing else. -/
theorem State.commit_spec (s : State) (k : Input) (e : Ev) :
    let t := s.commit k e
    (∀ j, t.inp j = if j = k then e.inp else s.inp j) ∧
      t.executor = s.executor ∧ t.sys = s.sys ∧ t.port = s.port ∧ t.freeCount = s.freeCount ∧
      t.pending = s.pending ∧
      ∀ d, (s.slot d).sameButNotices (t.slot d) ∧
        (∀ j, (t.slot d).marks.get j = ((s.slot d).marks.get j ||
          ((s.slot d).live && decide (j = k) &&
            (e.out.contains (.mark d) || changeMarks (s.inp k) e.inp d (s.slot d))))) ∧
        (∀ n, (t.slot d).flags.has n =
          ((s.slot d).flags.has n || ((s.slot d).live && e.out.contains (.raise n d)))) ∧
        (t.slot d).pulse =
          if (s.slot d).live = true ∧ .raise .glideDone d ∈ e.out then some 1
          else (s.slot d).pulse := by
  obtain ⟨h1, h2, h3, h4, h5, h6, h7⟩ := Signal.foldl_at k e.out (s.setInp k e.inp)
  have hi : ∀ j, (e.out.foldl (Signal.at k) (s.setInp k e.inp)).inp j = if j = k then e.inp else s.inp j := by
    intro j
    rw [← State.setInp_inp]
    simp [State.inp, h1]
  refine ⟨hi, h2, h3, h4, h5, h6, ?_⟩
  intro d
  obtain ⟨g1, g2, g3, g4⟩ := Signal.foldl_on k d e.out (s.slot d)
  have hd := h7 d
  simp only [State.setInp_slot] at hd
  rw [← hd] at g1 g2 g3 g4
  rw [State.commit, State.markChanges_slot, hi k, if_pos rfl, changeMarks_sameButNotices g1]
  have hl := SlotRec.sameButNotices_live g1
  by_cases hc : changeMarks (s.inp k) e.inp d (s.slot d) = true
  · rw [if_pos hc]
    refine ⟨SlotRec.sameButNotices_trans g1 (SlotRec.mark_sameButNotices _ _), ?_, ?_, ?_⟩
    · intro j
      rw [SlotRec.mark_marks, g2, hl, hc]
      cases (s.slot d).marks.get j <;> cases (s.slot d).live <;> cases decide (j = k) <;> simp
    · intro n; simp [g3]
    · simp [g4]
  · rw [if_neg hc]
    refine ⟨g1, ?_, g3, g4⟩
    intro j
    rw [g2]
    simp [hc]

@[simp] theorem State.commit_inp_self (s : State) (k : Input) (e : Ev) : (s.commit k e).inp k = e.inp := by
  simpa using (s.commit_spec k e).1 k

theorem State.commit_inp_ne (s : State) {k j : Input} (e : Ev) (h : j ≠ k) :
    (s.commit k e).inp j = s.inp j := by
  simpa [h] using (s.commit_spec k e).1 j

@[simp] theorem State.commit_executor (s : State) (k : Input) (e : Ev) :
    (s.commit k e).executor = s.executor := (s.commit_spec k e).2.1
@[simp] theorem State.commit_sys (s : State) (k : Input) (e : Ev) :
    (s.commit k e).sys = s.sys := (s.commit_spec k e).2.2.1
@[simp] theorem State.commit_port (s : State) (k : Input) (e : Ev) :
    (s.commit k e).port = s.port := (s.commit_spec k e).2.2.2.1
@[simp] theorem State.commit_freeCount (s : State) (k : Input) (e : Ev) :
    (s.commit k e).freeCount = s.freeCount := (s.commit_spec k e).2.2.2.2.1
@[simp] theorem State.commit_pending (s : State) (k : Input) (e : Ev) :
    (s.commit k e).pending = s.pending := (s.commit_spec k e).2.2.2.2.2.1
theorem State.commit_slot (s : State) (k : Input) (e : Ev) (d : Slot) :
    (s.slot d).sameButNotices ((s.commit k e).slot d) := ((s.commit_spec k e).2.2.2.2.2.2 d).1

/-- The per-input result is no part of what a commit takes over. -/
theorem State.commit_code (s : State) (k : Input) (x : Inp) (out : List Signal) (c : ResultCode) :
    s.commit k ⟨x, out, c⟩ = s.after k x out := rfl

theorem changeMarks_same (x : Inp) (d : Slot) (r : SlotRec) : changeMarks x x d r = false := by
  simp [changeMarks]

theorem Table.ofFn_get {α : Type} {n : Nat} (t : Table α n) : Table.ofFn (fun i => t.get i) = t := by
  apply Table.ext_get; simp

/-- An event that leaves its input as it was and raises nothing changes nothing. -/
@[simp] theorem State.after_same (s : State) (k : Input) : s.after k (s.inp k) [] = s := by
  have h : (Table.ofFn fun d => s.slots.get d) = s.slots := Table.ofFn_get s.slots
  simp [State.after, State.commit, State.markChanges, changeMarks_same, State.slot, h]

/-! ## The events -/

theorem State.atInput_pending (s : State) (k : Input) (f : Env → Ev → Ev) :
    (s.atInput k f).pending = s.pending := by
  simp [State.atInput]

/-- An acknowledgement that is not a late one is an event at its input. -/
theorem execFrontEndAck_taken {s : State} {k : Input} (h : s.ackLate k = false) :
    execFrontEndAck k s = .next ((s.ackJudged k).atInput k ackAt) := by
  simp [execFrontEndAck, h]

/-- A late acknowledgement changes only the count of those that may still come. -/
theorem execFrontEndAck_late {s : State} {k : Input} (h : s.ackLate k = true) :
    execFrontEndAck k s = .next ((s.ackJudged k).setInp k
      { s.inp k with unanswered := (s.inp k).unanswered - 1 }) := by
  simp [execFrontEndAck, h]

/-- What events at several inputs keep. -/
theorem State.atInputs_kept {P : State → Prop} (p : Inp → Bool) (f : Env → Ev → Ev)
    (h : ∀ t k, P t → P (t.atInput k f)) (s : State) (hs : P s) : P (s.atInputs p f) := by
  unfold State.atInputs
  generalize List.finRange 64 = ks
  induction ks generalizing s with
  | nil => exact hs
  | cons k ks ih =>
    simp only [List.foldl_cons]
    split
    · exact ih _ (h s k hs)
    · exact ih _ hs

/-- Events at several inputs change nothing outside the inputs but the marks, flags and pulse windows of
slots. -/
theorem State.atInputs_rest (s : State) (p : Inp → Bool) (f : Env → Ev → Ev) :
    slotsKeptButNotices s (s.atInputs p f) ∧ restKept s (s.atInputs p f) := by
  apply State.atInputs_kept (P := fun t => slotsKeptButNotices s t ∧ restKept s t)
  · rintro t k ⟨h1, h2, h3, h4, h5, h6⟩
    refine ⟨fun d => SlotRec.sameButNotices_trans (h1 d) (State.commit_slot ..), ?_⟩
    simp [restKept, State.atInput, *]
  · exact ⟨fun d => rfl, rfl, rfl, rfl, rfl, rfl⟩

@[simp] theorem State.atInputs_executor (s : State) (p : Inp → Bool) (f : Env → Ev → Ev) :
    (s.atInputs p f).executor = s.executor := (s.atInputs_rest p f).2.1
@[simp] theorem State.atInputs_sys (s : State) (p : Inp → Bool) (f : Env → Ev → Ev) :
    (s.atInputs p f).sys = s.sys := (s.atInputs_rest p f).2.2.1
@[simp] theorem State.atInputs_port (s : State) (p : Inp → Bool) (f : Env → Ev → Ev) :
    (s.atInputs p f).port = s.port := (s.atInputs_rest p f).2.2.2.1
@[simp] theorem State.atInputs_freeCount (s : State) (p : Inp → Bool) (f : Env → Ev → Ev) :
    (s.atInputs p f).freeCount = s.freeCount := (s.atInputs_rest p f).2.2.2.2.1
@[simp] theorem State.atInputs_pending (s : State) (p : Inp → Bool) (f : Env → Ev → Ev) :
    (s.atInputs p f).pending = s.pending := (s.atInputs_rest p f).2.2.2.2.2

end Sys2Proof.Machine
end

