-- ==== Sys2Proof/Laws/Apply.lean ====
section
/-! SUPPORT. What the bundle executor does at the next application of an operation: the checks before
it, the application at one input, and the gathering of its result, each said once. -/

namespace Sys2Proof.Machine

/-! ## The kind of a record -/

theorem patternOnly_eq_some {f : Pattern → Op} {l : List Byte} {o : Op} (h : patternOnly f l = some o) :
    ∃ p, o = f p := by
  unfold patternOnly at h
  split at h
  · exact ⟨_, (Option.some.inj h).symm⟩
  · cases h

theorem patternAnd_eq_some {f : Pattern → Byte → Option Op} {l : List Byte} {o : Op}
    (h : patternAnd f l = some o) : ∃ p x, f p x = some o := by
  unfold patternAnd at h
  split at h
  · exact ⟨_, _, h⟩
  · cases h

theorem patternFlagsTwo_eq_some {f : Pattern → Byte → Byte → Byte → Op} {l : List Byte} {o : Op}
    (h : patternFlagsTwo f l = some o) : ∃ p x y z, o = f p x y z := by
  unfold patternFlagsTwo at h
  split at h
  · exact ⟨_, _, _, _, (Option.some.inj h).symm⟩
  · cases h

theorem noParams_eq_some {q : Op} {l : List Byte} {o : Op} (h : noParams q l = some o) : o = q := by
  unfold noParams at h
  split at h
  · exact (Option.some.inj h).symm
  · cases h

theorem oneByte_eq_some {f : Byte → Op} {l : List Byte} {o : Op} (h : oneByte f l = some o) :
    ∃ x, o = f x := by
  unfold oneByte at h
  split at h
  · exact ⟨_, (Option.some.inj h).symm⟩
  · cases h

/-- A record that carries an operation is of that operation's kind. -/
theorem kind_of_decodeOp {c : OpRec} {o : Op} (h : decodeOp c = some o) : c.kind = o.kind := by
  apply BitVec.eq_of_toNat_eq
  unfold decodeOp at h
  split at h
  all_goals try (cases h; done)
  all_goals (rename_i hk; rw [hk]; clear hk)
  · obtain ⟨_, _, _, _, rfl⟩ := patternFlagsTwo_eq_some h; rfl
  · obtain ⟨_, rfl⟩ := patternOnly_eq_some h; rfl
  · obtain ⟨_, _, _, _, rfl⟩ := patternFlagsTwo_eq_some h; rfl
  · obtain ⟨_, _, h⟩ := patternAnd_eq_some h
    obtain ⟨_, _, rfl⟩ := Option.map_eq_some_iff.1 h; rfl
  · obtain ⟨_, rfl⟩ := patternOnly_eq_some h; rfl
  · obtain ⟨_, _, h⟩ := patternAnd_eq_some h
    cases h; rfl
  · obtain ⟨_, rfl⟩ := patternOnly_eq_some h; rfl
  · obtain ⟨_, _, _, _, rfl⟩ := patternFlagsTwo_eq_some h; rfl
  · obtain ⟨_, rfl⟩ := patternOnly_eq_some h; rfl
  · obtain ⟨_, _, h⟩ := patternAnd_eq_some h
    obtain ⟨_, _, rfl⟩ := Option.map_eq_some_iff.1 h; rfl
  · obtain ⟨_, _, h⟩ := patternAnd_eq_some h
    obtain ⟨_, _, rfl⟩ := Option.map_eq_some_iff.1 h; rfl
  · obtain ⟨_, rfl⟩ := patternOnly_eq_some h; rfl
  · obtain ⟨_, rfl⟩ := patternOnly_eq_some h; rfl
  · rw [noParams_eq_some h]; rfl
  · obtain ⟨_, rfl⟩ := patternOnly_eq_some h; rfl
  · unfold enablesParams at h
    split at h
    · split at h <;> cases h; rfl
    · cases h
  · obtain ⟨_, rfl⟩ := oneByte_eq_some h; rfl
  · rw [noParams_eq_some h]; rfl
  · unfold configureInputParams at h
    split at h
    · obtain ⟨_, _, rfl⟩ := Option.map_eq_some_iff.1 h; rfl
    · cases h
  · unfold configureDeskParams at h
    split at h <;> cases h; rfl
  · obtain ⟨_, rfl⟩ := oneByte_eq_some h; rfl
  · obtain ⟨_, rfl⟩ := oneByte_eq_some h; rfl
  · obtain ⟨_, rfl⟩ := oneByte_eq_some h; rfl
  · unfold setTimingParams at h
    split at h <;> cases h; rfl
  · rw [noParams_eq_some h]; rfl
  · rw [noParams_eq_some h]; rfl
  · rw [noParams_eq_some h]; rfl

/-! ## The next application -/

/-- Where the next operation is `o` and its slot may send it, the executor's step for that kind is the
operation's own. -/
theorem State.applyKind_of_sends {s : State} {r : Run} {o : Op} (h : s.sends r o)
    (body : Run → Op → State) : s.applyKind o.kind body = body r o := by
  obtain ⟨c, hn, hd, hs⟩ := h
  have hk := kind_of_decodeOp hd
  simp only [State.applyKind, hn, hk, if_true, hd]
  split
  · rename_i h'
    simp only [Bool.and_eq_true, bne_iff_ne, ne_eq] at h'
    exact absurd (hs h'.1) h'.2
  · rfl

/-- The next application of a pattern operation, at the input it is to. -/
theorem State.onPattern_of_nextAt {s : State} {r : Run} {p : Pattern} {exact : Bool} {k : Input}
    {rest : List Input} {past : List (Input × ResultCode)} (h : s.nextAt r p exact k rest past)
    (one : Input → State → Applied) :
    s.onPattern r p exact one =
      (one k s).state.answered r k rest past (one k s).code (one k s).image := by
  rcases h with h | ⟨h, rfl, hc⟩
  · simp only [State.onPattern, h]; rfl
  · simp only [State.onPattern, h, hc]; rfl

/-- The next application of an operation that is an event at its input. -/
theorem State.onPattern_event {s : State} {r : Run} {p : Pattern} {exact : Bool} {k : Input}
    {rest : List Input} {past : List (Input × ResultCode)} (h : s.nextAt r p exact k rest past)
    (f : Env → Ev → Ev) :
    s.onPattern r p exact (applyEvent f) =
      (s.commit k (s.evAt k f)).answered r k rest past (s.evAt k f).code [] := by
  rw [State.onPattern_of_nextAt h]; rfl

@[simp] theorem State.answered_pending (s : State) (r : Run) (k : Input) (rest : List Input)
    (past : List (Input × ResultCode)) (c : ResultCode) (image : List Byte) :
    (s.answered r k rest past c image).pending = s.pending := by
  unfold State.answered
  split <;> rfl

@[simp] theorem State.gather_pending (s : State) (r : Run) (x : OpResult) :
    (s.gather r x).pending = s.pending := rfl

/-! ## What a step of the executor keeps -/

/-- Whatever every application of an operation keeps, and gathering keeps, the executor's step keeps. -/
theorem State.onPattern_kept {P : State → Prop} {s : State} {r : Run} (p : Pattern) (exact : Bool)
    {one : Input → State → Applied} (hs : P s) (hr : ∀ t q, P t → P (t.setRun q))
    (h : ∀ k, P (one k s).state) : P (s.onPattern r p exact one) := by
  have hat : ∀ k rest past, P (s.applyAt r one k rest past) := by
    intro k rest past
    unfold State.applyAt
    cases rest
    · exact hr _ _ (h k)
    · exact hr _ _ (h k)
  unfold State.onPattern
  split
  · exact hat _ _ _
  · exact hr _ _ hs
  · split
    · exact hr _ _ hs
    · exact hr _ _ hs
    · exact hat _ _ _

theorem State.applyKind_kept {P : State → Prop} {s : State} (kind : Byte) {body : Run → Op → State}
    (hs : P s) (hr : ∀ t q, P t → P (t.setRun q))
    (h : ∀ r o, s.sends r o → P (body r o)) : P (s.applyKind kind body) := by
  unfold State.applyKind
  split
  · exact hs
  · rename_i r c hn
    split
    · split
      · exact hr _ _ hs
      · rename_i o ho
        split
        · exact hr _ _ hs
        · rename_i hk
          refine h r o ⟨c, hn, ho, fun hsys => ?_⟩
          simpa [hsys] using hk
    · exact hs

/-- A record found next is that of the bundle in execution. -/
theorem State.nextRecord_run {s : State} {r : Run} {c : OpRec} (h : s.nextRecord = some (r, c)) :
    s.executor.run = some r ∧ r.ops[r.pos]? = some c := by
  unfold State.nextRecord at h
  split at h
  · rename_i q hq
    obtain ⟨a, ha, he⟩ := Option.map_eq_some_iff.1 h
    cases he
    exact ⟨hq, ha⟩
  · cases h

theorem State.sends_run {s : State} {r : Run} {o : Op} (h : s.sends r o) : s.executor.run = some r := by
  obtain ⟨c, hn, _⟩ := h
  exact (State.nextRecord_run hn).1

end Sys2Proof.Machine
end

