-- ==== Sys2Proof/Tests/Slice0.lean ====
section
/-! SUPPORT. Tests: ill-formed terms that WellFormed refuses, values worked out by hand from the spec, and a
witness for every statement that has hypotheses. -/

namespace Sys2Proof.Tests

open Sys2Proof Sys2Proof.Machine

-- One theorem after another: the kernel evaluations side by side take more threads than memory holds.
set_option Elab.async false

/-! ## Well-formedness -/

theorem test_wf_ignored : (Instr.ignoredTransaction (some 0x12) 3).wf = false := by decide
theorem test_wf_ignored_code5 : (Instr.ignoredTransaction (some 0x50) 3).wf = true := by decide
theorem test_wf_presence : (Instr.presenceTimerExpiry 0).wf = false := by decide
theorem test_wf_enables :
    (Op.setNoticeEnables (.ofByte 0x05) (.ofByte 0x04)).wf = false := by decide
theorem test_wf_bundle_empty : (Bundle.mk 0 []).wf = false := by decide
theorem test_wf_bundle_long : (Bundle.mk 0 (List.replicate 17 ⟨0x15, []⟩)).wf = false := by decide
theorem test_wf_bundle_params : (Bundle.mk 0 [⟨0x15, List.replicate 16 0⟩]).wf = false := by decide

/-! ## Records and frames, written out from R151 -/

/-- SET GAIN at input 5, mask 0, rate given: -3 dB absolute at 10 ms/dB. -/
theorem test_record_setGain : decodeOp ⟨0x08, [0x05, 0x00, 0x02, 0xFD, 0x0A]⟩ =
    some (.setGain ⟨5, 0⟩ false (-3) (some 10)) := by decide
/-- OPEN TAP at inputs 8..15 with level -2 qdB; bits 7..6 of base and mask are ignored. -/
theorem test_record_openTap : decodeOp ⟨0x01, [0xC8, 0x47, 0x01, 0xFF, 0xFE]⟩ =
    some (.openTap ⟨8, 7⟩ (some (-2))) := by decide
/-- CONFIGURE INPUT with lock set and policy BACKOFF only. -/
theorem test_record_configureInput :
    decodeOp ⟨0x20, [0x01, 0x00, 0x06, 0x02, 0x02, 0x09, 0x09, 0x09]⟩ =
      some (.configureInput ⟨1, 0⟩ ⟨none, some true, some .backoff, none, none, none⟩) := by decide
theorem test_record_mode4 : decodeOp ⟨0x0B, [0x01, 0x00, 0x04]⟩ = none := by decide
theorem test_record_length : decodeOp ⟨0x15, [0x00]⟩ = none := by decide
/-- A bundle of one KEEPALIVE with tag 0x42: 6 bytes. -/
theorem test_frame_keepalive :
    parseBundle [0x01, 0x00, 0x06, 0x42, 0x15, 0x00] 0 = .ok ⟨0x42, [⟨0x15, []⟩]⟩ := by rfl
theorem test_frame_length : parseBundle [0x01, 0x00, 0x07, 0x42, 0x15, 0x00] 0 = .error .badLength := by
  rfl

/-- R143: the code in bits 7..4 and the slot in bits 2..0, bit 3 ignored: 0x1D is WRITE BUNDLE of slot 5 and
0x4A is SET QUEUE THRESHOLD of slot 2. -/
theorem test_commandByte_slots : readTransaction [0x1D, 0x07] 3 = .writeBundle 5 [0x07] 3 ∧
    readTransaction [0x20, 0, 0] 0 = .readResponse 0 2 ∧
    readTransaction [0x4A, 0x03] 0 = .setQueueThreshold 2 [0x03] := by decide
/-- R143: READ PORT STATUS disregards its slot field; slot 6, code 0, code 5 and no byte are ignored. -/
theorem test_commandByte_ignored : readTransaction [0x37] 5 = .readPortStatus 0 ∧
    readTransaction [0x16, 0x01] 0 = .ignoredTransaction (some 0x16) 1 ∧
    readTransaction [0x00] 0 = .ignoredTransaction (some 0x00) 0 ∧
    readTransaction [0x51] 0 = .ignoredTransaction (some 0x51) 0 ∧
    readTransaction [] 7 = .ignoredTransaction none 0 := by decide

/-! ## Numbers worked in the spec -/

/-- R72: 26,843,545.6 rounds up. -/
theorem test_coefficient : coefficient (-80) = 26843546 := by decide +kernel
/-- R75: at trim 0 with both gates open the sample is 16 × s. -/
theorem test_feed_unity : feedSample (-8388608) 268435456 480 480 480 = -134217728 := by decide
/-- R75: +2.5 gives +3 and -2.5 gives -3. -/
theorem test_round_ties : roundDiv 5 2 = 3 ∧ roundDiv (-5) 2 = -3 := by decide
/-- R37, R73: the last sample of a crossfade is the target. -/
theorem test_fade_end : fadeAt 2684355 268435456 240 240 = 268435456 := by decide
/-- R123: base 0 with mask 48 matches 0, 16, 32 and 48. -/
theorem test_pattern :
    ((List.finRange 64).filter fun k => patternMatches ⟨0, 48⟩ k) = [0, 16, 32, 48] := by decide
/-- R42: behind the last entry of its rank or above (ranks 5, 3, 3, 1 and a newcomer of rank 3). -/
theorem test_queue_place :
    insertBehind (fun c : Slot => decide (c < 4)) 5 [1, 2, 3, 4] = [1, 2, 3, 5, 4] := by decide
/-- R64: N = 60, L = 200 is out of reach upward: T = 80, CLAMPED. -/
theorem test_tracking_clamped : tracking 60 200 = (80, .clamped) := by decide

/-! ## Small states -/

/-- The reset state with input 1 changed. -/
def at1 (f : Inp → Inp) : State := State.reset.setInp 1 (f (.reset false))

/-- The reset state with slot `d` changed. -/
def onSlot (d : Slot) (f : SlotRec → SlotRec) : State := State.reset.modSlot d f

def theRun (d : Slot) (o : Op) : Run := ⟨d, 7, [encodeOp o], 0, [], none⟩

/-- The state with a bundle of the one operation `o` from slot `d` in execution. -/
def probe (d : Slot) (o : Op) (s : State) : State := s.setRun (some (theRun d o))

/-- Input 1 alone. -/
def only : Pattern := ⟨1, 0⟩

/-- A tap of that role. -/
def tapOf (role : Role) (desired : Option Int) : Tap :=
  ⟨role, desired, 0, false, 0, 268435456, 0, none, []⟩

def ownedBy (d : Slot) (x : Inp) : Inp :=
  { x with owner := some d, taps := x.taps.set d (some (tapOf .owner none)) }

/-- A glide to 20 dB. -/
def glideIn (state : GlideState) (step : StepState) (staged : Option Retarget) : Glide :=
  ⟨20, 5, .owner, state, step, none, staged⟩

/-- Input 1 owned by slot 1, with a step to 19 dB outstanding. -/
def stepOut : State := at1 fun x => { ownedBy 1 x with
  mode := .mic, gain := 18
  outstanding := some ⟨.gain 19, .step .owner, 4⟩
  glide := some (glideIn .stepping .outstanding none) }

/-- The same with no time left to the step. -/
def overdue : State := stepOut.setInp 1 { stepOut.inp 1 with
  outstanding := some ⟨.gain 19, .step .owner, 0⟩ }

/-- The hypotheses of a statement on an operation that carries a pattern. -/
def Meets (s : State) (d : Slot) (o : Op) (exact : Bool) : Prop :=
  (probe d o s).sends (theRun d o) o ∧ (probe d o s).nextAt (theRun d o) only exact 1 [] []

theorem sends_of {s : State} {d : Slot} {o : Op} (h1 : decodeOp (encodeOp o) = some o)
    (h2 : o.systemOnly = true → d = 0) : (probe d o s).sends (theRun d o) o :=
  ⟨encodeOp o, rfl, h1, h2⟩

theorem meets_of {s : State} {d : Slot} {o : Op} {exact : Bool}
    (h1 : decodeOp (encodeOp o) = some o) (h2 : o.systemOnly = true → d = 0) : Meets s d o exact :=
  ⟨sends_of h1 h2, .inr ⟨rfl, rfl, by cases exact <;> rfl⟩⟩

/-! ## One step on a small state, with values worked out from the spec -/

/-- The state after a command. -/
def after (c : Instr) (s : State) : State :=
  match exec c s with
  | .next t => t
  | _ => s

/-- The result code of the only operation. -/
def code (s : State) : Option ResultCode := s.executor.run.bind fun r => r.results.head?.map OpResult.code

/-- R144: a frame to a CLOSED slot is discarded; one to the system slot is queued. -/
theorem test_writeBundle :
    (after (.writeBundle 1 [1, 0, 6, 0x42, 0x15, 0] 0) State.reset).port.lastOutcome = .closed ∧
    ((after (.writeBundle 0 [1, 0, 6, 0x42, 0x15, 0] 0) State.reset).slot 0).requests =
      [⟨0x42, [⟨0x15, []⟩]⟩] := by decide +kernel
/-- R147: the empty-response marker, then 0x00. -/
theorem test_readResponse_empty :
    (after (.readResponse 3 5) State.reset).port.sdo.tail = [0, 0, 0, 4, 0] := by decide +kernel
/-- R25: with no level given L = N, so T = 0 and the tap is TRACKING. -/
theorem test_openTap :
    let t := after .openTap (probe 0 (.openTap only none) State.reset)
    ((t.inp 1).tap 0).map (fun q => (q.role, q.desired, q.trim)) = some (.tracking, some 0, 0) ∧
    code t = some .done := by decide +kernel
/-- R43: no tap, no ownership. -/
theorem test_claim_noTap : code (after .claim (probe 0 (.claim only false) State.reset)) = some .noTap := by
  decide +kernel
/-- R43, R49: a claim at an orphaned input. -/
theorem test_claim_orphaned :
    let s := at1 fun x => { x with taps := x.taps.set 0 (some (tapOf .tracking (some 0))) }
    let t := after .claim (probe 0 (.claim only false) s)
    (t.inp 1).owner = some 0 ∧ ((t.inp 1).tap 0).map (·.desired) = some none ∧
    (t.slot 0).flags.ownership = true := by decide +kernel
/-- R78: 127 dB is clamped to 60 in MIC, and the rate 255 to 100. -/
theorem test_setGain_clamped :
    let s := at1 fun x => { ownedBy 1 x with mode := .mic }
    let t := after .setGain (probe 1 (.setGain only false 127 (some 255)) s)
    (t.inp 1).glide = some ⟨60, 100, .owner, .waiting, .absent, none, none⟩ ∧
    code t = some .clamped := by decide +kernel
/-- R13: phantom ON in OFF mode. -/
theorem test_setPhantom_off :
    code (after .setPhantom (probe 1 (.setPhantom only true) (at1 (ownedBy 1)))) = some .modeConflict := by
  decide +kernel
/-- R29, R64: G from 18 to 19 dB takes N to 76, and a tap at L = 100 to T = 24. -/
theorem test_ack_tracks :
    let s := stepOut.setInp 1 { stepOut.inp 1 with
      taps := (stepOut.inp 1).taps.set 2 (some (tapOf .tracking (some 100))) }
    let t := after (.frontEndAck 1) s
    (t.inp 1).gain = 19 ∧ ((t.inp 1).tap 2).map (fun q => (q.role, q.trim)) = some (.tracking, 24) := by
  decide +kernel
/-- R7: after the step failed, a late acknowledgement of it with no write outstanding is ignored. -/
theorem test_ack_late :
    let t := after (.frontEndAck 1) (after (.writeFail 1) overdue)
    (t.inp 1).gain = 18 ∧ (after (.writeFail 1) overdue).ackLate 1 = true ∧ (t.inp 1).unanswered = 0 := by
  decide +kernel
/-- R8, R94: a power-on reset forgets the step, and its start-up write is outstanding. -/
theorem test_powerOn_forgets :
    ((after .powerOnReset stepOut).inp 1).unanswered = 1 ∧
    ((after .powerOnReset stepOut).inp 1).outstanding = some ⟨.mode .off 0, .startUp 0, 4⟩ := by decide +kernel
/-- R10: a failed step puts the input into FAULT, ends its glide and tells the owner. -/
theorem test_writeFail :
    let t := after (.writeFail 1) (overdue.modSlot 1 fun r => { r with state := .opened })
    (t.inp 1).fault = true ∧ (t.inp 1).glide = none ∧ (t.slot 1).flags.frontend = true := by
  decide +kernel
/-- R114: the slot goes ABSENT, and its input has no owner. -/
theorem test_presence :
    let s := stepOut.modSlot 1 fun r => { r with state := .opened, timer := some 0 }
    let t := after (.presenceTimerExpiry 1) s
    (t.slot 1).state = .absent ∧ (t.inp 1).owner = none := by decide +kernel
/-- R113: the acceptance of a bundle reloads the timer, and the expiry that follows it finds none. -/
theorem test_presence_reloaded :
    let s := stepOut.modSlot 1 fun r => { r with state := .opened, timer := some 0 }
    let t := after (.presenceTimerExpiry 1) (after (.writeBundle 1 [1, 0, 6, 0x42, 0x15, 0] 0) s)
    (t.slot 1).state = .opened ∧ (t.slot 1).timer = some 5000 ∧ (t.inp 1).owner = some 1 := by
  decide +kernel
/-- Slot 4's tap on input 1 with two changes waiting: +8 qdB after one more sample and +4 qdB now. -/
def aligned : State := at1 fun x => { x with
  mode := .mic, taps := x.taps.set 4 (some { tapOf .tracking (some 0) with waiting := [⟨8, 1⟩, ⟨4, 0⟩] }) }
/-- R36: a change waits while its delay runs; the sample releases the one whose delay has run down, and the one
made before it is discarded. -/
theorem test_release :
    let tap := fun s : State => ((s.inp 1).tap 4).map fun t => (t.inForce, t.waiting, t.fade.map Fade.done)
    after (.alignedChangeRelease 4 1 0) aligned = aligned ∧
    tap (after (.alignedChangeRelease 4 1 1) aligned) = some (4, [], some 0) ∧
    tap (after (.converterSample 1 100) aligned) = some (4, [], some 1) := by decide +kernel
/-- R75: one count below full, the gate opens with the sample, which is 16 × s at trim 0. -/
theorem test_converterSample :
    let s := at1 fun x => { x with
      mode := .mic, taps := x.taps.set 4 (some { tapOf .tracking (some 0) with gate := 479 }) }
    ((after (.converterSample 1 100) s).inp 1).feed.get 4 = 1600 := by decide +kernel
/-- R22: PSAG sets the supply flag and raises SUPPLY for the system slot. -/
theorem test_psag : (after .psagAssert State.reset).sys.supplyFlag = true ∧
    ((after .psagAssert State.reset).slot 0).flags.supply = true := by decide +kernel

/-! ## Witnesses: machine and port -/

theorem witness_StepRunsFrontCommand :
    ({ State.reset with pending := [.bundleTake, .bundleEnd] } : State).pending =
      .bundleTake :: [.bundleEnd] := rfl
theorem witness_IdleStepIsOneMillisecond : State.reset.pending = [] := rfl
theorem witness_OperationRecordRoundTrip : (Op.setNoticeEnables (.ofByte 0x05) (.ofByte 0xFA)).wf = true ∧
    decodeOp ⟨0x25, [0x04, 0, 0, 63]⟩ = some (.setTiming none none (some 63)) ∧
    kindKnown 0x0D = false ∧ kindKnown 0x29 = false ∧ kindKnown 0x28 = true ∧
    3 < (4 : Byte).toNat ∧ 1 < (2 : Byte).toNat ∧ (0x04 : Byte).getLsbD 2 = true ∧ 2 < (3 : Byte).toNat ∧
    (0x81 : Byte) &&& 0x80 ≠ 0 := by decide
theorem witness_ResponseLayout : (Response.mk 7 [⟨.busy, 64, 63, 1, some 63, []⟩]).Lawful :=
  ⟨by decide, by simp [OpResult.Lawful]⟩
theorem witness_ReadPortStatusShowsAndClears :
    ∀ d, (State.reset.slot d).requests.length ≤ 8 ∧ (State.reset.slot d).responses.length ≤ 4 ∧
      (State.reset.slot d).threshold ≤ 7 := by decide +kernel
/-- At 14 bytes every clause on `n` applies to every slot; at 15 the last one too. -/
theorem witness_ReadPortStatus_bytes : 1 ≤ 14 ∧ 2 ≤ 14 ∧ (∀ d : Slot, 2 * d.val + 4 ≤ 14) ∧ 14 < 15 := by
  decide
/-- Command bytes at the edges: none, code 0, code 5, slot 6 with code 1 and slot 7 with code 4. -/
theorem witness_IgnoredTransactions :
    ∀ c ∈ [0x00, 0x07, 0x50, 0xF0, 0x16, 0x47].map (BitVec.ofNat 8),
      c.toNat / 16 = 0 ∨ 4 < c.toNat / 16 ∨ (6 ≤ c.toNat % 8 ∧ c.toNat / 16 ≠ 3) := by decide
/-- Another row's command bytes at the edges of the codes and slots: the last clause of each kind. -/
theorem witness_OtherTransactions :
    (∀ c ∈ [0x10, 0x15, 0x37, 0x4D].map (BitVec.ofNat 8),
      1 ≤ c.toNat / 16 ∧ c.toNat / 16 ≤ 4 ∧ (c.toNat % 8 < 6 ∨ c.toNat / 16 = 3)) ∧
    ((0x4D : Byte).extractLsb' 4 4).toNat = 4 ∧ ((0x4D : Byte).extractLsb' 0 3).toNat = (5 : Slot).val ∧
    ((0x2E : Byte).extractLsb' 4 4).toNat = 2 ∧ 6 ≤ ((0x2E : Byte).extractLsb' 0 3).toNat ∧
    ((0x3F : Byte).extractLsb' 4 4).toNat = 3 ∧ State.reset.pending = [] := by decide
theorem witness_AttentionBitsAndAttn : ∀ d, (State.reset.slot d).threshold ≤ 7 := by decide +kernel

/-! ## Witnesses: executor -/

def twoWaiting : State :=
  (onSlot 2 fun r => { r with state := .opened, requests := [⟨7, [⟨0x15, []⟩]⟩] }).modSlot 5
    fun r => { r with state := .opened, requests := [⟨8, [⟨0x15, []⟩]⟩] }

/-- With the pointer at 5, slot 2 comes before slot 5. -/
theorem witness_BundleTakeArbitrates :
    let s := twoWaiting
    let takeable := fun d : Slot => (s.slot d).requests ≠ [] ∧ (s.slot d).responses.length < 4 ∧
      s.executor.resetRequested = false
    let turn := fun d : Slot => (d.val + 4 - s.executor.pointer.val) % 5
    s.executor.run = none ∧ takeable 2 ∧ ¬ takeable 0 ∧
      (∀ e, e ≠ 0 → takeable e → turn 2 ≤ turn e) ∧ (s.slot 2).requests = [⟨7, [⟨0x15, []⟩]⟩] := by
  decide +kernel
theorem witness_BundleTake_none : ∀ d, (State.reset.slot d).requests = [] := by decide +kernel
theorem witness_BundleEndInOrder :
    let s := State.reset.setRun (some ⟨0, 7, [⟨0x15, []⟩], 1, [⟨.done, 1, 1, 0, none, []⟩], none⟩)
    s.executor.run = some ⟨0, 7, [⟨0x15, []⟩], 1, [⟨.done, 1, 1, 0, none, []⟩], none⟩ ∧ 1 ≤ 1 :=
  ⟨rfl, Nat.le_refl 1⟩
/-- No bundle, and a bundle one operation before its end: nothing happens. -/
theorem witness_BundleEnd_early : State.reset.executor.run = none ∧
    (probe 1 .keepalive State.reset).executor.run = some (theRun 1 .keepalive) ∧
    (theRun 1 .keepalive).pos < (theRun 1 .keepalive).ops.length := ⟨rfl, rfl, by decide⟩
/-- Slot 1 sends a bundle of one KEEPALIVE, and a glide of its input 1 waits at its target of 20 dB. -/
def glideWaits : State :=
  let s := (at1 fun x => { ownedBy 1 x with mode := .mic, gain := 20, glide := some (glideIn .waiting .absent none) })
  (s.modSlot 1 fun r => { r with state := .opened }).setRun
    (some ⟨1, 7, [encodeOp .keepalive], 1, [⟨.done, 1, 1, 0, none, []⟩], none⟩)
/-- At the end of the bundle that glide ends with GLIDE_DONE, the window opens, and input 1 is marked (R81,
R134, R138). -/
theorem test_bundleEnd_glide :
    let t := after .bundleEnd glideWaits
    (glideWaits.inp 1).bundleGlide = true ∧ (t.inp 1).glide = none ∧ (t.slot 1).pulse = some 1 ∧
    (t.slot 1).marks.get 1 = true ∧ (t.slot 1).responses.length = 1 := by decide +kernel
theorem witness_BundleEndStartsGlides :
    (glideIn .waiting .absent none).state = .waiting ∧
    (glideIn .stepping .outstanding (some ⟨30, 0⟩)).state = .stepping ∧
    (glideIn .stepping .outstanding (some ⟨30, 0⟩)).staged = some ⟨30, 0⟩ := by decide
def runOf (c : OpRec) (d : Slot) : State := State.reset.setRun (some ⟨d, 7, [c], 0, [], none⟩)
theorem witness_OperationsChecked :
    (runOf ⟨0x0D, []⟩ 1).nextRecord = some (⟨1, 7, [⟨0x0D, []⟩], 0, [], none⟩, ⟨0x0D, []⟩) ∧
    kindKnown 0x0D = false ∧
    (runOf ⟨0x04, [1, 0, 2]⟩ 1).nextRecord =
      some (⟨1, 7, [⟨0x04, [1, 0, 2]⟩], 0, [], none⟩, ⟨0x04, [1, 0, 2]⟩) ∧
    commandKind .setTapMute = some 0x04 ∧ decodeOp ⟨0x04, [1, 0, 2]⟩ = none ∧
    decodeOp ⟨0x28, []⟩ = some .controlReset ∧ Op.controlReset.systemOnly = true ∧ (1 : Slot) ≠ 0 ∧
    commandKind .readTap = some 0x05 ∧ (0x05 : Byte) ≠ 0x04 := by decide +kernel
theorem witness_PatternsChecked :
    (probe 1 (.readTap ⟨1, 4⟩) State.reset).sends (theRun 1 (.readTap ⟨1, 4⟩)) (.readTap ⟨1, 4⟩) ∧
    (probe 1 (.closeTap ⟨1, 63⟩) State.reset).sends (theRun 1 (.closeTap ⟨1, 63⟩)) (.closeTap ⟨1, 63⟩) ∧
    (State.reset.slot 1).perms.broadcast = false ∧ (State.reset.slot 0).perms.broadcast = true ∧
    opPattern (.readTap ⟨1, 4⟩) = some (⟨1, 4⟩, true) ∧
    commandKind .readTap = some (Op.readTap ⟨1, 4⟩).kind :=
  ⟨sends_of (by decide) (by decide), sends_of (by decide) (by decide), by decide +kernel,
    by decide +kernel, rfl, rfl⟩
/-- A pattern of two protected inputs matches none; of inputs 2 and 3 unprotected, both. -/
theorem witness_PatternsChecked_match :
    ({ State.reset with inputs := State.reset.inputs.map fun x => { x with isProtected := true } } :
      State).expand ⟨2, 1⟩ = [] ∧ State.reset.expand ⟨2, 1⟩ = [2, 3] := by decide +kernel
theorem witness_ResultSummarised :
    ([((3 : Input), ResultCode.busy)].filter fun q => [ResultCode.busy].contains q.2).head? =
      some (3, .busy) ∧
    (ResultCode.clamped ∈ [ResultCode.queued, .clamped]) ∧
    (ResultCode.clamped ∉ [ResultCode.pending]) ∧ (ResultCode.pending ∉ [ResultCode.queued]) := by decide

/-! ## Witnesses: operations that carry a pattern -/

theorem witness_OpenTapMakesTap : Meets State.reset 1 (.openTap only none) false ∧
    Meets State.reset 1 (.openTap only (some 0x8000)) false :=
  ⟨meets_of (by decide) (by decide), meets_of (by decide) (by decide)⟩
theorem witness_CloseTapRetiresTap : Meets (at1 (ownedBy 1)) 1 (.closeTap only) false :=
  meets_of (by decide) (by decide)
theorem witness_SetLevelSetsTrim : Meets State.reset 1 (.setLevel only true 0x7FFF) false ∧
    (State.reset.inp 1).tap 1 = none ∧
    ((at1 (ownedBy 1)).inp 1).tap 1 = some (tapOf .owner none) ∧
    ((at1 fun x => { x with taps := x.taps.set 1 (some (tapOf .tracking (some 0))) }).inp 1).tap 1 =
      some (tapOf .tracking (some 0)) :=
  ⟨meets_of (by decide) (by decide), by decide +kernel, by decide +kernel, by decide +kernel⟩
theorem witness_SetTapMuteSetsMute : Meets (at1 (ownedBy 1)) 1 (.setTapMute only true) false :=
  meets_of (by decide) (by decide)
theorem witness_ReadTapShowsTap : Meets (at1 (ownedBy 1)) 1 (.readTap only) true ∧
    ((at1 (ownedBy 1)).inp 1).tap 1 = some (tapOf .owner none) ∧ (State.reset.inp 1).tap 1 = none :=
  ⟨meets_of (by decide) (by decide), by decide +kernel, by decide +kernel⟩
/-- Slot 2 stands third in a queue in which slot 5 has no place. -/
theorem witness_ReadTapShowsTap_position :
    ([3, 4, 2, 1] : List Slot) = [3, 4] ++ 2 :: [1] ∧ (2 : Slot) ∉ [3, 4] ∧ (5 : Slot) ∉ [3, 4, 2, 1] := by
  decide
theorem witness_ClaimJudged : Meets (at1 (ownedBy 1)) 2 (.claim only true) false :=
  meets_of (by decide) (by decide)
theorem witness_ReleaseJudged : Meets (at1 (ownedBy 1)) 1 (.release only) false :=
  meets_of (by decide) (by decide)
theorem witness_SetGainSetsTarget : Meets (at1 (ownedBy 1)) 1 (.setGain only true 0x80 (some 255)) false :=
  meets_of (by decide) (by decide)
theorem witness_StopGlideEndsGlide : Meets stepOut 1 (.stopGlide only) false ∧
    (State.reset.inp 1).owner ≠ some 1 ∧
    ((at1 (ownedBy 1)).inp 1).owner = some 1 ∧ ((at1 (ownedBy 1)).inp 1).glide = none ∧
    (stepOut.inp 1).owner = some 1 ∧ (stepOut.inp 1).glide = some (glideIn .stepping .outstanding none) ∧
    (stepOut.inp 1).outstanding = some ⟨.gain 19, .step .owner, 4⟩ ∧
    (glideIn .waiting .absent none).state = .waiting ∧ (glideIn .stepping .ready none).step ≠ .outstanding :=
  ⟨meets_of (by decide) (by decide), by decide +kernel, by decide +kernel, by decide +kernel,
    by decide +kernel, by decide +kernel, by decide +kernel, rfl, by decide⟩
theorem witness_FrontEndRequestsJudged : Meets (at1 (ownedBy 1)) 1 (.setMode only .inst) false ∧
    Meets (at1 (ownedBy 1)) 1 (.setPhantom only true) false :=
  ⟨meets_of (by decide) (by decide), meets_of (by decide) (by decide)⟩
theorem witness_RecheckJoinsPath : Meets State.reset 0 (.recheckFrontEnd only) false :=
  meets_of (by decide) (by decide)
theorem witness_ConfigureInputApplies :
    Meets State.reset 0 (.configureInput only ⟨some true, some true, some .report, some 0, some 17, some 6⟩)
      false :=
  meets_of (by decide) (by decide)
theorem witness_ReadInputShowsRecord : Meets stepOut 3 (.readInput only) true :=
  meets_of (by decide) (by decide)

/-! ## Witnesses: events of an input -/

theorem witness_PathMovesOn :
    let x : Inp := { Inp.reset false with outstanding := none }
    ((Inp.reset false).outstanding.isSome = true ∧ x.waiting = []) ∧
    ({ x with waiting := [.step, .recheck], glide := some (glideIn .stepping .ready none) } : Inp).glide =
      some (glideIn .stepping .ready none) ∧
    ({ x with waiting := [.switching], inFlight := some ⟨.phantom true, 1, false⟩ } : Inp).waiting =
      .switching :: [] ∧
    ({ x with waiting := [.recheck, .step] } : Inp).waiting = .recheck :: [.step] := by decide
theorem witness_AcknowledgementRecords :
    ((at1 fun x => { x with outstanding := none }).inp 1).outstanding = none ∧
    ((at1 fun x => { x with outstanding := none }).inp 1).unanswered = 0 ∧
    (at1 fun x => { x with outstanding := none, unanswered := 1 }).ackLate 1 = true ∧
    (State.reset.inp 1).outstanding = some ⟨.mode .off 0, .startUp 0, 4⟩ ∧
    State.reset.ackLate 1 = false := by decide +kernel
theorem witness_StepAcknowledged :
    (stepOut.inp 1).outstanding = some ⟨.gain 19, .step .owner, 4⟩ ∧ stepOut.ackLate 1 = false := by
  decide +kernel
/-- Input 1 with that write outstanding, in that sequencer state, with a phantom change in flight. -/
def underWay (seq : SeqState) (w : Write) (i : Issuer) : State := at1 fun x => { x with
  mode := .mic, seq := seq, inFlight := some ⟨.phantom true, 1, false⟩, outstanding := some ⟨w, i, 4⟩ }
theorem witness_GroupAcknowledged : (underWay .switching (.phantom true) .switching).ackLate 1 = false ∧
    ((underWay .switching (.phantom true) .switching).inp 1).outstanding =
      some ⟨.phantom true, .switching, 4⟩ ∧
    ((underWay .switching (.phantom true) .switching).inp 1).inFlight = some ⟨.phantom true, 1, false⟩ ∧
    ((underWay .halted (.mode .mic 0) (.recheck 0)).inp 1).outstanding =
      some ⟨.mode .mic 0, .recheck 0, 4⟩ ∧
    ((underWay .halted (.phantom true) (.recheck 1)).inp 1).outstanding =
      some ⟨.phantom true, .recheck 1, 4⟩ ∧
    ((underWay .halted (.gain 0) (.recheck 2)).inp 1).outstanding = some ⟨.gain 0, .recheck 2, 4⟩ ∧
    (State.reset.inp 1).outstanding = some ⟨.mode .off 0, .startUp 0, 4⟩ ∧
    ((underWay .idle (.phantom false) (.startUp 1)).inp 1).outstanding =
      some ⟨.phantom false, .startUp 1, 4⟩ := by decide +kernel
theorem witness_WriteFailureEntersFault :
    ((at1 fun x => { x with outstanding := none }).inp 1).outstanding = none ∧
    (stepOut.inp 1).outstanding = some ⟨.gain 19, .step .owner, 4⟩ ∧
    (overdue.inp 1).outstanding = some ⟨.gain 19, .step .owner, 0⟩ := by decide +kernel
/-- Each timer with no time left, where its expiry has its effect; the states stand one by one. -/
theorem witness_TimersExpire :
    (let x := (at1 fun x => { x with seq := .settling, settleLeft := some 0 }).inp 1;
      x.seq = .settling ∧ x.settleLeft = some 0) ∧
    { glideIn .stepping .absent none with timer := some 0 }.timer = some 0 ∧
    { Guard.reset with count := 1, timer := some 0 }.timer = some 0 ∧
    ((onSlot 1 fun r => { r with pulse := some 0 }).slot 1).pulse = some 0 := by decide +kernel
/-- The same with the sequence gate at `m`. -/
def ramping (seq : SeqState) (m : Nat) : State :=
  let s := underWay seq (.gain 0) (.step .owner)
  s.setInp 1 { s.inp 1 with seqGate := m }
theorem witness_MuteRampEnds :
    ((ramping .muting 0).inp 1).seq = .muting ∧ ((ramping .muting 0).inp 1).seqGate = 0 ∧
    ((ramping .muting 0).inp 1).inFlight = some ⟨.phantom true, 1, false⟩ ∧
    ((ramping .halted 0).inp 1).seq ≠ .muting ∧ ((ramping .muting 1).inp 1).seqGate ≠ 0 := by decide +kernel
/-- R74: one count above 0 the mute ramp has not ended; at 0 the sequencer goes on. -/
theorem test_muteRampEnd :
    ((after (.muteRampEnd 1) (ramping .muting 1)).inp 1).seq = .muting ∧
    ((after (.muteRampEnd 1) (ramping .muting 0)).inp 1).seq = .switching := by decide +kernel
theorem witness_UnmuteRampEnds : (State.reset.inp 1).seq ≠ .unmuting ∧
    ((ramping .unmuting 479).inp 1).seqGate ≠ 480 ∧
    ((ramping .unmuting 480).inp 1).seq = .unmuting ∧ ((ramping .unmuting 480).inp 1).seqGate = 480 := by
  decide +kernel
/-- R74: at 479 of 480 the unmute ramp has not ended; at 480 the sequencer is IDLE. -/
theorem test_unmuteRampEnd :
    ((after (.unmuteRampEnd 1) (ramping .unmuting 479)).inp 1).seq = .unmuting ∧
    ((after (.unmuteRampEnd 1) (ramping .unmuting 480)).inp 1).seq = .idle := by decide +kernel
/-- Input 1 in MIC under that policy, at one clip below the threshold of 4. -/
def clipping (p : Policy) (fault : Bool) (gain : Nat) : State := at1 fun x => { x with
  mode := .mic, gain := gain, fault := fault, guard := ⟨p, 4, 4, 3, 3, some 900, 59, .none⟩ }
/-- Not counted at reset; counted below the threshold; and at it in each of its four outcomes. -/
theorem witness_ClipCountedToThreshold :
    (State.reset.inp 1).guard.policy = .off ∧
    (let x := (at1 fun x => { x with mode := .mic, guard := ⟨.report, 4, 4, 3, 2, some 900, 0, .none⟩ }).inp 1;
      x.guard.policy ≠ .off ∧ x.seq = .idle ∧ x.mode ≠ .off ∧
        min 15 (x.guard.count + 1) < x.guard.threshold) ∧
    (∀ c ∈ [(Policy.report, false, 0), (.backoff, true, 9), (.backoff, false, 0), (.backoff, false, 2)],
      let x := (clipping c.1 c.2.1 c.2.2).inp 1
      (x.guard.policy ≠ .off ∧ x.seq = .idle ∧ x.mode ≠ .off) ∧
        x.guard.threshold ≤ min 15 (x.guard.count + 1) ∧ x.guard.policy = c.1 ∧ x.fault = c.2.1 ∧
        x.gain = c.2.2) := by decide +kernel

/-! ## Witnesses: the other operations and events -/

theorem witness_ReadImagesShowRecords :
    (probe 5 .readMarks State.reset).sends (theRun 5 .readMarks) .readMarks ∧
    (∀ d ∈ [(0 : Slot), 5], (probe 0 (.readDesk (BitVec.ofNat 3 d)) State.reset).sends
      (theRun 0 (.readDesk (BitVec.ofNat 3 d))) (.readDesk (BitVec.ofNat 3 d))) ∧
    (probe 0 .readSystemStatus State.reset).sends (theRun 0 .readSystemStatus) .readSystemStatus :=
  ⟨sends_of (by decide) (by decide),
    fun d hd => sends_of (by revert d; decide) (fun _ => rfl), sends_of (by decide) (by decide)⟩
theorem witness_NoticeOperationsApply : Meets State.reset 1 (.clearMarks only) false ∧
    (probe 1 (.setNoticeEnables (.ofByte 0xF0) (.ofByte 0x0F)) State.reset).sends
      (theRun 1 (.setNoticeEnables (.ofByte 0xF0) (.ofByte 0x0F)))
      (.setNoticeEnables (.ofByte 0xF0) (.ofByte 0x0F)) ∧
    (probe 1 (.clearNotices (.ofByte 0xFF)) State.reset).sends (theRun 1 (.clearNotices (.ofByte 0xFF)))
      (.clearNotices (.ofByte 0xFF)) ∧
    (probe 1 .keepalive State.reset).sends (theRun 1 .keepalive) .keepalive :=
  ⟨meets_of (by decide) (by decide), sends_of (by decide) (by decide), sends_of (by decide) (by decide),
    sends_of (by decide) (by decide)⟩
theorem witness_DeskConfiguredAndOpened :
    (∀ n ∈ [(0 : BitVec 3), 5, 6, 7],
      (probe 0 (.configureDesk n (some 8) none (some 0)) State.reset).sends
        (theRun 0 (.configureDesk n (some 8) none (some 0))) (.configureDesk n (some 8) none (some 0)) ∧
      (probe 0 (.openDesk n) State.reset).sends (theRun 0 (.openDesk n)) (.openDesk n) ∧
      (probe 0 (.closeDesk n) State.reset).sends (theRun 0 (.closeDesk n)) (.closeDesk n) ∧
      (probe 0 (.readDesk n) State.reset).sends (theRun 0 (.readDesk n)) (.readDesk n)) ∧
    BitVec.ofNat 3 (5 : Slot).val = 5 ∧ 6 ≤ (6 : BitVec 3).toNat ∧ 6 ≤ (7 : BitVec 3).toNat :=
  ⟨fun n hn => ⟨sends_of (by revert n; decide) (fun _ => rfl), sends_of (by revert n; decide) (fun _ => rfl),
    sends_of (by revert n; decide) (fun _ => rfl), sends_of (by revert n; decide) (fun _ => rfl)⟩, by decide⟩
theorem witness_CloseDeskTearsDown :
    (∀ d ∈ [(0 : Slot), 1, 5], ∀ s, (probe 0 (.closeDesk (BitVec.ofNat 3 d)) s).sends
      (theRun 0 (.closeDesk (BitVec.ofNat 3 d))) (.closeDesk (BitVec.ofNat 3 d))) ∧
    (1 : Slot) ≠ 0 ∧ (State.reset.slot 1).state = .closed ∧
    ((onSlot 5 fun r => { r with state := .absent }).slot 5).state ≠ .closed :=
  ⟨fun d hd s => sends_of (by revert d; decide) (fun _ => rfl), by decide, by decide +kernel,
    by decide +kernel⟩
theorem witness_PresenceExpiryMakesAbsent :
    (State.reset.slot 0).timer ≠ some 0 ∧ (State.reset.slot 5).state ≠ .opened ∧
    ((onSlot 5 fun r => { r with state := .opened, timer := some 1 }).slot 5).timer ≠ some 0 ∧
    (let s := onSlot 5 fun r => { r with state := .opened, timer := some 0 };
      (s.slot 5).state = .opened ∧ (s.slot 5).timer = some 0 ∧ 0 < (s.slot 5).timeout ∧
      (after (.writeBundle 5 [1, 0, 6, 0x42, 0x15, 0] 0) s).port.lastOutcome = .accepted) := by decide +kernel
theorem witness_FeedMixerForms :
    let t := { tapOf .tracking (some 0) with waiting := [⟨8, 1⟩, ⟨4, 0⟩, ⟨2, 63⟩] }
    t.waiting = [⟨8, 1⟩] ++ ⟨4, 0⟩ :: [⟨2, 63⟩] ∧ (∀ e ∈ [(⟨2, 63⟩ : Aligned)], e.left ≠ 0) := by decide
theorem witness_SystemSettingsApply :
    (probe 0 (.setTiming (some 0) (some 51) (some 63)) State.reset).sends
      (theRun 0 (.setTiming (some 0) (some 51) (some 63))) (.setTiming (some 0) (some 51) (some 63)) ∧
    (probe 0 .clearSupply State.reset).sends (theRun 0 .clearSupply) .clearSupply ∧
    (probe 0 .controlReset State.reset).sends (theRun 0 .controlReset) .controlReset :=
  ⟨sends_of (by decide) (by decide), sends_of (by decide) (by decide), sends_of (by decide) (by decide)⟩
/-- The ends of the table, where its clauses on `t` begin and end. -/
theorem witness_CoefficientTableIsNearest : ((-160 : Int) ≤ -160 ∧ (-160 : Int) ≤ 80) ∧
    ((-160 : Int) ≤ 79 ∧ (79 : Int) < 80) := by decide

/-! ## Witnesses: the laws every step keeps -/

/-- Slot 1 is OPEN and owns input 1, where a step of its glide is outstanding; the acknowledgement comes. -/
def lawful : State :=
  { (stepOut.modSlot 1 fun r => { r with state := .opened, timer := some 5000 }) with
    pending := [.frontEndAck 1] }
theorem witness_step : ∃ t, step lawful = .next t := ⟨_, rfl⟩
theorem witness_GainsAndTapsKept : lawful.GainsInRange ∧ lawful.TapsLawful := by
  unfold State.GainsInRange Inp.GainsInRange State.TapsLawful Tap.Lawful
  decide +kernel
theorem witness_OwnershipKept : lawful.OwnershipLawful := by
  unfold State.OwnershipLawful Inp.OwnershipLawful
  decide +kernel
theorem witness_SlotsKept : lawful.SlotsLawful := by
  unfold State.SlotsLawful SlotRec.Lawful
  decide +kernel
theorem witness_FrontEndAndPhantomKept : lawful.FrontEndLawful ∧ lawful.PhantomSafe := by
  refine ⟨fun k => ⟨?_, ?_, ?_⟩, ?_⟩
  · unfold Inp.SequencerLawful; revert k; decide +kernel
  · unfold Inp.PathLawful; revert k; decide +kernel
  · unfold Inp.GlideLawful; revert k; decide +kernel
  · unfold State.PhantomSafe; decide +kernel
/-- Input 1 in LINE with phantom ON, for the clause on R4. -/
theorem witness_FrontEndAndPhantomKept_on :
    let s := at1 fun x => { x with mode := .line, phantom := true, outstanding := none }
    s.PhantomSafe ∧ (s.inp 1).phantom = true := by
  unfold State.PhantomSafe
  decide +kernel
theorem witness_FeedSamplesBounded : lawful.FeedLawful := by
  unfold State.FeedLawful Tap.MixLawful coefInTable
  decide +kernel
theorem witness_QueuesAndSettingsKept : lawful.QueuesBounded ∧ lawful.BundlesLawful ∧
    lawful.GuardsLawful ∧ lawful.SystemLawful := by
  refine ⟨?_, ⟨?_, by rintro r ⟨⟩⟩, ?_, ?_⟩
  · unfold State.QueuesBounded; decide +kernel
  · unfold Response.Lawful OpResult.Lawful; decide +kernel
  · unfold State.GuardsLawful Guard.Lawful; decide +kernel
  · unfold State.SystemLawful; decide +kernel

end Sys2Proof.Tests
end

section
/-! PROOFS. The taps: OPEN TAP, CLOSE TAP, SET LEVEL, SET TAP MUTE and READ TAP (R25 to R32), and the
feed mixer (R34 to R37, R73 to R75). First what is shared: an application that raises nothing, the next
application of each tap operation, and images; then one part for each operation. -/

namespace Sys2Proof.TapProofs

open Sys2Proof Sys2Proof.Machine

/-! ## The next application of a tap operation -/

/-- Input `k` as an event finds it: nothing raised, result DONE. -/
def untouched (s : State) (k : Input) : Ev := ⟨s.inp k, [], .done⟩

@[simp] theorem untouched_inp (s : State) (k : Input) : (untouched s k).inp = s.inp k := rfl

/-- An event that only answers changes nothing. -/
@[simp] theorem commit_answer (s : State) (k : Input) (c : ResultCode) :
    s.commit k ((untouched s k).answer c) = s := State.after_same s k

/-- An event that changes the record of its input and raises nothing. -/
@[simp] theorem commit_mod_answer (s : State) (k : Input) (f : Inp → Inp) (c : ResultCode) :
    s.commit k (((untouched s k).mod f).answer c) = s.after k (f (s.inp k)) [] := rfl

section Next
variable {s : State} {r : Run} {p : Pattern} {k : Input} {rest : List Input}
  {past : List (Input × ResultCode)}

theorem exec_openTap {level : Option (BitVec 16)} (hs : s.sends r (.openTap p level))
    (hn : s.nextAt r p false k rest past) :
    exec .openTap s = .next ((s.commit k (openTapAt r.slot level s.env (untouched s k))).answered r k rest
      past (openTapAt r.slot level s.env (untouched s k)).code []) :=
  congrArg Host.Outcome.next ((State.applyKind_of_sends hs _).trans (State.onPattern_event hn _))

theorem exec_closeTap (hs : s.sends r (.closeTap p)) (hn : s.nextAt r p false k rest past) :
    exec .closeTap s = .next ((closeTapOne r.slot k s).state.answered r k rest past
      (closeTapOne r.slot k s).code (closeTapOne r.slot k s).image) :=
  congrArg Host.Outcome.next ((State.applyKind_of_sends hs _).trans (State.onPattern_of_nextAt hn _))

theorem exec_setLevel {relative : Bool} {v : BitVec 16} (hs : s.sends r (.setLevel p relative v))
    (hn : s.nextAt r p false k rest past) :
    exec .setLevel s = .next ((s.commit k (setLevelAt r.slot relative v s.env (untouched s k))).answered r k
      rest past (setLevelAt r.slot relative v s.env (untouched s k)).code []) :=
  congrArg Host.Outcome.next ((State.applyKind_of_sends hs _).trans (State.onPattern_event hn _))

theorem exec_setTapMute {on : Bool} (hs : s.sends r (.setTapMute p on))
    (hn : s.nextAt r p false k rest past) :
    exec .setTapMute s = .next ((s.commit k (setTapMuteAt r.slot on s.env (untouched s k))).answered r k rest
      past (setTapMuteAt r.slot on s.env (untouched s k)).code []) :=
  congrArg Host.Outcome.next ((State.applyKind_of_sends hs _).trans (State.onPattern_event hn _))

theorem exec_readTap (hs : s.sends r (.readTap p)) (hn : s.nextAt r p true k rest past) :
    exec .readTap s = .next ((readTapOne r.slot k s).state.answered r k rest past
      (readTapOne r.slot k s).code (readTapOne r.slot k s).image) :=
  congrArg Host.Outcome.next ((State.applyKind_of_sends hs _).trans (State.onPattern_of_nextAt hn _))

end Next

/-- Equivalent conditions give the same of CLAMPED and DONE. -/
theorem clampedIf_congr {a b : Prop} [Decidable a] [Decidable b] (h : a ↔ b) :
    (if a then ResultCode.clamped else .done) = if b then .clamped else .done :=
  ite_congr (propext h) (fun _ => rfl) (fun _ => rfl)

/-! ## OPEN TAP (R25) -/

theorem openTapAt_of_holds {d : Slot} {level : Option (BitVec 16)} {v : Env} {e : Ev}
    (h : e.inp.holds d = true) : openTapAt d level v e = e.answer .tapOpen := if_pos h

theorem openTapAt_of_not_holds {d : Slot} {level : Option (BitVec 16)} {v : Env} {e : Ev}
    (h : ¬ e.inp.holds d = true) :
    openTapAt d level v e =
      (e.mod fun x => x.setTap d (some (newTap e.inp.net (openLevel e.inp level)))).answer
        (if openClamped level || (newTap e.inp.net (openLevel e.inp level)).role == .clamped
          then .clamped else .done) := if_neg h

/-- The level given had to be clamped exactly when it is not the desired level that comes of it. -/
theorem openClamped_iff (x : Inp) (level : Option (BitVec 16)) :
    openClamped level = true ↔ ∃ v ∈ level, v.toInt ≠ openLevel x level := by
  cases level with
  | none => simp [openClamped]
  | some v => simp [openClamped, openLevel, ne_comm (a := v.toInt)]

/-- The tracking computation finds CLAMPED exactly when the trim is not `l - n` (R64). -/
theorem tracking_clamped_iff (n l : Int) : (tracking n l).2 = .clamped ↔ clampTrim (l - n) ≠ l - n := by
  simp [tracking]

/-- Settles O22: TAP_OPEN and the new tap are the two branches of `openTapAt`. -/
theorem openTapMakesTap : Obligations.OpenTapMakesTap := by
  intro s r p level k rest past hs hn x given trim
  have hgiven : openLevel x level = given := by cases level <;> rfl
  have hcode : (openClamped level || (newTap x.net (openLevel x level)).role == .clamped) = true ↔
      (∃ v ∈ level, v.toInt ≠ given) ∨ trim ≠ given - x.net := by
    rw [Bool.or_eq_true, beq_iff_eq, openClamped_iff x, ← hgiven]
    exact or_congr Iff.rfl (tracking_clamped_iff _ _)
  rw [exec_openTap hs hn]
  by_cases hx : x.holds r.slot = true
  · rw [openTapAt_of_holds hx, if_pos hx, commit_answer, Ev.answer_code]
  · rw [openTapAt_of_not_holds hx, if_neg hx, commit_mod_answer, Ev.answer_code, untouched_inp,
      ← clampedIf_congr hcode, hgiven]
    rfl

/-! ## CLOSE TAP (R26) -/

theorem closeTapOne_of_not_holds {d : Slot} {k : Input} {s : State} (h : ¬ (s.inp k).holds d = true) :
    closeTapOne d k s = ⟨s, .noTap, []⟩ := by
  have he : s.evAt k (closeTapAt d) = (untouched s k).answer .noTap := if_neg h
  simp only [closeTapOne, he, commit_answer, Ev.answer_code, if_neg h]

theorem closeTapOne_of_holds {d : Slot} {k : Input} {s : State} (h : (s.inp k).holds d = true) :
    closeTapOne d k s =
      ⟨(s.commit k ((untouched s k).retire d)).modSlot d (SlotRec.clearMark k), .done, []⟩ := by
  have he : s.evAt k (closeTapAt d) = ((untouched s k).retire d).answer .done := if_pos h
  simp only [closeTapOne, he, if_pos h]
  rfl

/-- The owner leaves: a hand-over to the head of the queue, which leaves it, or to none (R47, R49, R53). -/
theorem handOn_eq (e : Ev) :
    e.handOn = ⟨{ e.inp with queue := e.inp.queue.tail }.handedOver e.inp.queue.head?,
      e.out ++ ownershipFor e.inp e.inp.queue.head?, e.code⟩ := by
  obtain ⟨x, out, c⟩ := e
  cases h : x.queue with
  | nil =>
    have hx : { x with queue := [] } = x := by rw [← h]
    simp only [Ev.handOn, h, List.tail_nil, hx]
    rfl
  | cons d rest =>
    simp only [Ev.handOn, h]
    rfl

/-- A slot leaves as the owner, or gives up its place in the queue (R57, R59). -/
theorem leave_eq (d : Slot) (e : Ev) :
    e.leave d = ⟨if e.inp.owner = some d then
          { e.inp with queue := e.inp.queue.tail }.handedOver e.inp.queue.head?
        else { e.inp with queue := e.inp.queue.filter (· != d) },
      e.out ++ (if e.inp.owner = some d then ownershipFor e.inp e.inp.queue.head? else []), e.code⟩ := by
  by_cases h : e.inp.owner = some d
  · rw [Ev.leave, if_pos h, if_pos h, if_pos h, handOn_eq]
  · rw [Ev.leave, if_neg h, if_neg h, if_neg h, List.append_nil]
    rfl

/-- Settles O23: where the slot holds a tap, it leaves as the owner or as a queue entry, and its record and
its mark go. -/
theorem closeTapRetiresTap : Obligations.CloseTapRetiresTap := by
  intro s r p k rest past hs hn x
  rw [exec_closeTap hs hn]
  by_cases hx : x.holds r.slot = true
  · rw [closeTapOne_of_holds hx, if_pos hx, Ev.retire, leave_eq]
    rfl
  · rw [closeTapOne_of_not_holds hx, if_neg hx]

/-! ## SET LEVEL (R27, R28) -/

theorem setLevelAt_of_none {d : Slot} {relative : Bool} {v : BitVec 16} {w : Env} {e : Ev}
    (h : e.inp.tap d = none) : setLevelAt d relative v w e = e.answer .noTap := by
  simp [setLevelAt, h]

theorem setLevelAt_of_some {d : Slot} {relative : Bool} {v : BitVec 16} {w : Env} {e : Ev} {t : Tap}
    (h : e.inp.tap d = some t) :
    setLevelAt d relative v w e =
      (e.mod fun x => x.setTap d
        (some ((t.setLevel e.inp.net relative v.toInt).1.handNow t.trim))).answer
        (if (t.setLevel e.inp.net relative v.toInt).2 then .clamped else .done) := by
  simp [setLevelAt, h]

/-- The number that SET LEVEL carries, clamped as a delta or as a level (R27). -/
def givenLevel (relative : Bool) (v : Int) : Int := if relative then clampDelta v else clampLevel v

/-- SET LEVEL at the owner's tap sets its trim (R28). -/
theorem setLevel_owner {t : Tap} (h : t.role = .owner) (n : Int) (relative : Bool) (v : Int) :
    let given := givenLevel relative v
    let want := if relative then t.trim + given else given - n
    t.setLevel n relative v =
      ({ t with trim := clampTrim want }, given != v || clampTrim want != want) := by
  obtain ⟨role, desired, _⟩ := t
  subst h
  rfl

/-- SET LEVEL at a non-owner's tap sets its desired level, and the tracking computation its trim and role
(R27, R64). -/
theorem setLevel_nonOwner {t : Tap} {l : Int} (h : t.role ≠ .owner) (hl : t.desired = some l) (n : Int)
    (relative : Bool) (v : Int) :
    let given := givenLevel relative v
    let want := if relative then l + given else given
    let level := clampLevel want
    t.setLevel n relative v =
      ({ t with desired := some level, trim := (tracking n level).1, role := (tracking n level).2 },
        given != v || level != want || (tracking n level).2 == .clamped) := by
  obtain ⟨role, desired, _⟩ := t
  subst hl
  cases role with
  | owner => exact absurd rfl h
  | tracking => rfl
  | clamped => rfl

/-- Settles O24: no tap, the owner's tap and a non-owner's tap are the cases of `Tap.setLevel`. -/
theorem setLevelSetsTrim : Obligations.SetLevelSetsTrim := by
  intro s r p relative v k rest past hs hn x value given moved
  refine ⟨?_, ?_, ?_⟩
  · intro ht
    rw [exec_setLevel hs hn, setLevelAt_of_none ht, commit_answer, Ev.answer_code]
  · intro t ht hrole want trim
    have hcode : (given != value || clampTrim want != want) = true ↔ given ≠ value ∨ trim ≠ want := by
      rw [Bool.or_eq_true, bne_iff_ne, bne_iff_ne]
      rfl
    rw [exec_setLevel hs hn, setLevelAt_of_some ht, commit_mod_answer, Ev.answer_code,
      setLevel_owner hrole, ← clampedIf_congr hcode]
    rfl
  · intro t l ht hrole hl want level trim role
    have hcode : (given != value || clampLevel want != want ||
        (tracking x.net level).2 == .clamped) = true ↔
        given ≠ value ∨ level ≠ want ∨ role = .clamped := by
      rw [Bool.or_eq_true, Bool.or_eq_true, bne_iff_ne, bne_iff_ne, beq_iff_eq, or_assoc]
      rfl
    rw [exec_setLevel hs hn, setLevelAt_of_some ht, commit_mod_answer, Ev.answer_code,
      setLevel_nonOwner hrole hl, ← clampedIf_congr hcode]
    rfl

/-! ## SET TAP MUTE (R31) -/

/-- Settles O25: `setTapMuteAt` on a slot without and with a tap. -/
theorem setTapMuteSetsMute : Obligations.SetTapMuteSetsMute := by
  intro s r p on k rest past hs hn x
  rw [exec_setTapMute hs hn]
  cases ht : x.tap r.slot with
  | none =>
    have he : setTapMuteAt r.slot on s.env (untouched s k) = (untouched s k).answer .noTap := by
      simp [setTapMuteAt, show (s.inp k).tap r.slot = none from ht]
    rw [he, commit_answer, Ev.answer_code]
  | some t =>
    have he : setTapMuteAt r.slot on s.env (untouched s k) =
        ((untouched s k).mod fun x => x.setTap r.slot (some { t with mute := on })).answer .done := by
      simp [setTapMuteAt, show (s.inp k).tap r.slot = some t from ht]
    rw [he, commit_mod_answer, Ev.answer_code]
    rfl

/-! ## Images (R151 to R153) -/

/-- The bits of a byte that an image states, under a mask of them. -/
theorem mask_fill {m mask : Byte} (h : m &&& mask = m) (v f : Byte) :
    ((v &&& mask) ||| (f &&& ~~~mask)) &&& m = v &&& m := by
  ext i hi
  have hb : (m[i] && mask[i]) = m[i] := by rw [← BitVec.getElem_and, h]
  simp only [BitVec.getElem_and, BitVec.getElem_or, BitVec.getElem_not]
  cases hm : m[i] <;> cases hk : mask[i] <;> simp_all

/-- An image shows every bit that it states. -/
theorem fillImage_shows {bs : List ImageByte} {i : Nat} {mask value m v : Byte}
    (hb : bs[i]? = some ⟨mask, value⟩) (hm : m &&& mask = m) (hv : value &&& m = v) (n : Nat) :
    shows (fillImage n bs) i m v := by
  subst hv
  induction bs generalizing n i with
  | nil => simp at hb
  | cons c bs ih =>
    cases i with
    | zero =>
      obtain rfl : c = ⟨mask, value⟩ := by simpa using hb
      refine ⟨_, rfl, ?_⟩
      split
      · rfl
      · exact mask_fill hm _ _
    | succ i => exact ih (by simpa using hb) (n + 1)

theorem fillImage_shows_stated {bs : List ImageByte} {i : Nat} {v : Byte} (hb : bs[i]? = some ⟨0xFF, v⟩)
    (n : Nat) : shows (fillImage n bs) i 0xFF v :=
  fillImage_shows hb (by decide) BitVec.and_allOnes n

@[simp] theorem fillImage_length (n : Nat) (bs : List ImageByte) : (fillImage n bs).length = bs.length := by
  induction bs generalizing n with
  | nil => rfl
  | cons b bs ih => simp [fillImage, ih]

theorem fillImage_append (n : Nat) (as bs : List ImageByte) :
    fillImage n (as ++ bs) = fillImage n as ++ fillImage (n + as.length) bs := by
  induction as generalizing n with
  | nil => rfl
  | cons a as ih => simp [fillImage, ih, Nat.add_assoc, Nat.add_comm 1]

/-- Bytes that are stated whole stand in the image as they are. -/
theorem fillImage_statedAll (n : Nat) (bs : List Byte) : fillImage n (statedAll bs) = bs := by
  induction bs generalizing n with
  | nil => rfl
  | cons b bs ih => exact congrArg (b :: ·) (ih (n + 1))

/-! ## READ TAP (R32) -/

theorem readTapOne_of_none {d : Slot} {k : Input} {s : State} (h : (s.inp k).tap d = none) :
    readTapOne d k s = ⟨s, .noTap, []⟩ := by
  simp only [readTapOne, h]

theorem readTapOne_of_some {d : Slot} {k : Input} {s : State} {t : Tap} (h : (s.inp k).tap d = some t) :
    readTapOne d k s = ⟨{ s with freeCount := s.freeCount + 10 }, .done,
      fillImage s.freeCount (tapImage (s.inp k) k d t)⟩ := by
  simp only [readTapOne, h]
  rfl

/-- The role, mute and level bits of byte 2 of the tap image. -/
def tapFlags (t : Tap) : Byte := fields [(t.role.code, 0), (t.mute.toNat, 6), (t.desired.isSome.toNat, 7)]

theorem tapFlags_role (t : Tap) : tapFlags t &&& 0x03 = match t.role with
    | .owner => 0
    | .tracking => 1
    | .clamped => 2 := by
  unfold tapFlags
  cases t.role <;> cases t.mute <;> cases t.desired.isSome <;> rfl

theorem tapFlags_mute (t : Tap) : tapFlags t &&& 0x40 = if t.mute then 0x40 else 0 := by
  unfold tapFlags
  cases t.role <;> cases t.mute <;> cases t.desired.isSome <;> rfl

theorem tapFlags_desired (t : Tap) : tapFlags t &&& 0x80 = if t.desired.isSome then 0x80 else 0 := by
  unfold tapFlags
  cases t.role <;> cases t.mute <;> cases t.desired.isSome <;> rfl

/-- Bytes 3..8 of the tap image: desired level, trim and effective level. -/
def tapLevels (x : Inp) (t : Tap) : List Byte :=
  signedBytes (t.desired.getD 0) ++ signedBytes t.trim ++ signedBytes (x.net + t.trim)

theorem tapLevels_length (x : Inp) (t : Tap) : (tapLevels x t).length = 6 := rfl

/-- The tap image in its parts: slot, input and flags, the levels, the claim position. -/
theorem tapImage_eq (x : Inp) (k : Input) (d : Slot) (t : Tap) :
    tapImage x k d t = [stated (byteOf d), stated (byteOf k), partly 0xC3 (tapFlags t)] ++
      (statedAll (tapLevels x t) ++ [stated (byteOf ((x.claimPosition d).getD 0))]) := rfl

/-- The levels stand in bytes 3..8 of every image taken. -/
theorem fill_tapImage_levels (n : Nat) (x : Inp) (k : Input) (d : Slot) (t : Tap) :
    ((fillImage n (tapImage x k d t)).drop 3).take 6 = tapLevels x t := by
  rw [tapImage_eq, fillImage_append, fillImage_append, fillImage_statedAll,
    List.drop_left' (by simp), List.take_left' (tapLevels_length x t)]

/-- A slot ahead of which `ahead` stands in the queue has the place after those (R23, R30). -/
theorem claimPosition_of_split {x : Inp} {d : Slot} {ahead behind : List Slot}
    (hq : x.queue = ahead ++ d :: behind) (hd : d ∉ ahead) :
    x.claimPosition d = some (ahead.length + 1) := by
  have hmem : d ∈ x.queue := by simp [hq]
  rw [Inp.claimPosition, if_pos hmem, hq, List.idxOf_append, if_neg hd, List.idxOf_cons_self,
    Nat.zero_add]

/-- Settles O26: each field of the image is one stated byte or part of one. -/
theorem readTapShowsTap : Obligations.ReadTapShowsTap := by
  refine ⟨?_, fun x d => ⟨fun hd => if_neg hd, fun ahead behind hq hd => claimPosition_of_split hq hd⟩⟩
  intro s r p k rest past hs hn x
  refine ⟨fun ht => ?_, fun t ht => ⟨fillImage s.freeCount (tapImage x k r.slot t), ?_, ?_, ?_⟩⟩
  · rw [exec_readTap hs hn, readTapOne_of_none ht]
  · rw [exec_readTap hs hn, readTapOne_of_some ht]
  · exact fillImage_length _ _
  · have flags : (tapImage x k r.slot t)[2]? = some ⟨0xC3, tapFlags t⟩ := rfl
    exact ⟨fillImage_shows_stated rfl _, fillImage_shows_stated rfl _,
      fillImage_shows flags (by decide) (tapFlags_role t) _,
      fillImage_shows flags (by decide) (tapFlags_mute t) _,
      fillImage_shows flags (by decide) (tapFlags_desired t) _,
      fill_tapImage_levels .., fillImage_shows_stated rfl _⟩

/-! ## Rounding (R73, R75) -/

/-- The distance of `den * roundDiv num den` from `num` is that of the quotient of the absolute value. -/
theorem roundDiv_error (num : Int) (den : Nat) :
    (den : Int) * roundDiv num den - num =
      num.sign * ((den : Int) * ((2 * num.natAbs + den) / (2 * den) : Nat) - num.natAbs) := by
  rw [roundDiv, Int.mul_sub, Int.sign_mul_natAbs, Int.mul_left_comm]

theorem natAbs_sign_mul {num : Int} (h : num ≠ 0) (x : Int) : (num.sign * x).natAbs = x.natAbs := by
  rw [Int.natAbs_mul, Int.natAbs_sign_of_ne_zero h, Nat.one_mul]

/-- The quotient `q` of `2 a + den` by `2 den` is the number nearest to `a / den`, and above it at a tie. -/
theorem half_up_quotient (a : Nat) {den : Nat} (h : 0 < den) :
    let q := (2 * a + den) / (2 * den)
    2 * (den * q) ≤ 2 * a + den ∧ 2 * a < 2 * (den * q) + den := by
  intro q
  have hle : 2 * den * q ≤ 2 * a + den := Nat.mul_div_le _ _
  have hlt : 2 * a + den < 2 * den * q + 2 * den := Nat.lt_mul_div_succ _ (by omega)
  rw [Nat.mul_assoc] at hle hlt
  omega

/-- `roundDiv` gives an integer nearest to `num / den`, the one away from zero at a tie. -/
theorem roundDiv_nearest (num : Int) {den : Nat} (h : 0 < den) :
    2 * (den * roundDiv num den - num).natAbs ≤ den ∧
    (2 * (den * roundDiv num den - num).natAbs = den →
      num.natAbs < ((den : Int) * roundDiv num den).natAbs) := by
  by_cases hnum : num = 0
  · have hzero : roundDiv num den = 0 := by rw [roundDiv, hnum, Int.sign_zero, Int.zero_mul]
    rw [hzero, hnum]
    omega
  · obtain ⟨hle, hlt⟩ := half_up_quotient num.natAbs h
    rw [roundDiv_error, natAbs_sign_mul hnum, roundDiv, Int.mul_left_comm, natAbs_sign_mul hnum]
    omega

/-! ## Releases (R36, R37) -/

/-- A tap that `f` leaves as it is stays, as does a slot without a tap. -/
theorem modTap_same {x : Inp} {d : Slot} {f : Tap → Tap} (h : ∀ t ∈ x.tap d, f t = t) : x.modTap d f = x := by
  have hm : (x.tap d).map f = x.tap d := by
    cases ht : x.tap d with
    | none => rfl
    | some t => exact congrArg some (h t ht)
  rw [Inp.modTap, hm, Inp.setTap, Inp.tap, Table.set_get]

theorem setInp_modTap_same {s : State} {k : Input} {d : Slot} {f : Tap → Tap}
    (h : ∀ t ∈ (s.inp k).tap d, f t = t) : s.setInp k ((s.inp k).modTap d f) = s := by
  rw [modTap_same h, State.setInp_same]

/-- A change that is not waiting, or whose delay has not run down, is not released. -/
theorem releaseNth_same {n : Nat} {t : Tap} (h : ∀ c ∈ t.waiting[n]?, c.left ≠ 0) : t.releaseNth n = t := by
  cases hc : t.waiting[n]? with
  | none => simp only [Tap.releaseNth, hc]
  | some c => simp only [Tap.releaseNth, hc, if_neg (h c hc)]

theorem releaseNth_due {n : Nat} {t : Tap} {c : Aligned} (hc : t.waiting[n]? = some c) (h : c.left = 0) :
    t.releaseNth n = t.release c.trim (t.waiting.drop (n + 1)) := by
  simp only [Tap.releaseNth, hc, if_pos h]

theorem exec_alignedChangeRelease (s : State) (d : Slot) (k : Input) (n : Nat) :
    exec (.alignedChangeRelease d k n) s = .next (s.setInp k ((s.inp k).modTap d (Tap.releaseNth n))) := rfl

theorem releaseDue_same {t : Tap} (h : ∀ c ∈ t.waiting, c.left ≠ 0) : t.releaseDue = t := by
  simp only [Tap.releaseDue, lastDue_eq_none.2 h]

/-- The last change that is due is released, and those made after it wait on. -/
theorem releaseDue_last {t : Tap} {earlier later : List Aligned} {c : Aligned}
    (hw : t.waiting = earlier ++ c :: later) (hc : c.left = 0) (hl : ∀ e ∈ later, e.left ≠ 0) :
    t.releaseDue = t.release c.trim later := by
  have hd : lastDue t.waiting = some (c, later) := lastDue_eq_some.2 ⟨hc, hl, earlier, hw⟩
  simp only [Tap.releaseDue, hd]

/-! ## Samples (R73 to R75) -/

theorem exec_converterSample (s : State) (k : Input) (v : BitVec 24) :
    exec (.converterSample k v) s = .next (s.setInp k ((s.inp k).sample s.sys.rate96 v.toInt)) := rfl

theorem sample_tap (rate96 : Bool) (v : Int) (x : Inp) (d : Slot) :
    (x.sample rate96 v).tap d = (x.tap d).map (Tap.advance rate96) :=
  Table.get_map (Option.map (Tap.advance rate96)) x.taps d

/-- Each feed sample is formed from the values that the sample leaves. -/
theorem sample_feed (rate96 : Bool) (v : Int) (x : Inp) (d : Slot) :
    (x.sample rate96 v).feed.get d = (x.sample rate96 v).feedOf rate96 v d :=
  Table.get_ofFn _ d

/-- What a crossfade, if any, leaves of itself and of the coefficient after one sample (R73). -/
theorem move_eq (rate96 : Bool) (t : Tap) :
    t.move rate96 = { t with
      gate := moveGate (!t.mute) (gateSamples rate96) t.gate
      coef := match t.fade with
        | some f => roundDiv (f.start * fadeSamples rate96 +
            (coefficient t.inForce - f.start) * (f.done + 1)) (fadeSamples rate96)
        | none => t.coef
      fade := t.fade.bind fun f =>
        if f.done + 1 < fadeSamples rate96 then some ⟨f.start, f.done + 1⟩ else none
      waiting := t.waiting.map fun c => ⟨c.trim, c.left - 1⟩ } := by
  unfold Tap.move fadeAt
  cases t.fade <;> simp

/-- Settles O52: the release by its command, the release at a sample, the sample, and its rounding. -/
theorem feedMixerForms : Obligations.FeedMixerForms := by
  refine ⟨fun s d k n => ?_, fun t => ⟨releaseDue_same, fun _ _ _ => releaseDue_last⟩, fun s k v => ?_,
    fun num den => roundDiv_nearest num⟩
  · rw [exec_alignedChangeRelease]
    cases ht : (s.inp k).tap d with
    | none => simp [setInp_modTap_same, ht]
    | some t =>
      cases hc : t.waiting[n]? with
      | none => simp [setInp_modTap_same, releaseNth_same, ht, hc]
      | some c =>
        by_cases h0 : c.left = 0
        · simp only [Inp.modTap, ht, Option.map_some, releaseNth_due hc h0, h0, hc, ne_eq,
            not_true_eq_false, if_false]
          rfl
        · simp [setInp_modTap_same, releaseNth_same, ht, hc, h0]
  · intro x full fade moved
    refine ⟨x.sample s.sys.rate96 v.toInt, exec_converterSample s k v, rfl, rfl, fun d => ?_, fun d => ?_⟩
    · rw [sample_tap]
      exact congrArg (Option.map · (x.tap d)) (funext fun u => move_eq s.sys.rate96 u.releaseDue)
    · rw [sample_feed, Inp.feedOf]
      cases (x.sample s.sys.rate96 v.toInt).tap d with
      | none => rfl
      | some t => rfl

end Sys2Proof.TapProofs
end

section
/-! PROOFS. The coefficient table (R72): that the search finds the greatest number that fits, and from that
the nearest-integer test, the order of the table and its listed entries. -/

namespace Sys2Proof.CoefficientProofs

open Sys2Proof Sys2Proof.Machine

/-! ## What fits -/

/-- The test of the search with both sides multiplied by what clears the negative powers of ten. -/
theorem coefFits_iff {t : Int} (ht : -160 ≤ t) (c : Nat) :
    coefFits t c = true ↔ (2 * c - 1) ^ 80 * 10 ^ 160 ≤ 2 ^ 2320 * 10 ^ (t + 160).toNat := by
  obtain ⟨m, hm⟩ : ∃ m : Nat, m + (-t).toNat = 160 := ⟨160 - (-t).toNat, by omega⟩
  have hexp : (t + 160).toNat = t.toNat + m := by omega
  rw [coefFits, decide_eq_true_iff, hexp, ← hm]
  generalize 2 ^ 2320 = scale
  rw [Nat.pow_add', Nat.pow_add, ← Nat.mul_assoc, ← Nat.mul_assoc,
    Nat.mul_le_mul_right_iff (Nat.pow_pos (by decide))]

/-- At a whole decade the test is one on the numbers themselves. -/
theorem coefFits_decade (m c : Nat) :
    coefFits (80 * m - 160) c = true ↔ (2 * c - 1) * 100 ≤ 2 ^ 29 * 10 ^ m := by
  have hexp : (80 * (m : Int) - 160 + 160).toNat = m * 80 := by omega
  have hten : 10 ^ 160 = 100 ^ 80 := Nat.pow_mul 10 2 80
  have htwo (e : Nat) (he : e = 29 * 80) : 2 ^ e = (2 ^ 29) ^ 80 := he ▸ Nat.pow_mul 2 29 80
  rw [coefFits_iff (by omega), hexp, hten, htwo 2320 rfl, Nat.pow_mul, ← Nat.mul_pow, ← Nat.mul_pow,
    Nat.pow_le_pow_iff_left (by omega)]

theorem coefFits_anti {t : Int} {c d : Nat} (hcd : c ≤ d) (h : coefFits t d = true) :
    coefFits t c = true := by
  rw [coefFits, decide_eq_true_iff] at h ⊢
  exact Nat.le_trans (Nat.mul_le_mul_right _ (Nat.pow_le_pow_left (by omega) 80)) h

theorem coefFits_mono {t u : Int} (ht : -160 ≤ t) (htu : t ≤ u) {c : Nat} (h : coefFits t c = true) :
    coefFits u c = true := by
  rw [coefFits_iff ht] at h
  rw [coefFits_iff (Int.le_trans ht htu)]
  generalize 2 ^ 2320 = scale at h ⊢
  exact Nat.le_trans h (Nat.mul_le_mul_left _ (Nat.pow_le_pow_right (by omega) (by omega)))

/-! ## What the search finds -/

/-- A search between a number that fits and one that does not ends where the next number no longer fits. -/
theorem coefSearch_spec (t : Int) (b acc : Nat) (hfit : coefFits t acc = true)
    (hover : coefFits t (acc + 2 ^ b) = false) :
    coefFits t (coefSearch t b acc) = true ∧ coefFits t (coefSearch t b acc + 1) = false := by
  induction b generalizing acc with
  | zero => exact ⟨hfit, hover⟩
  | succ b ih =>
    rw [coefSearch]
    by_cases h : coefFits t (acc + 2 ^ b) = true
    · rw [if_pos h]
      exact ih _ h (by rwa [Nat.add_assoc, ← Nat.two_mul, ← Nat.pow_succ'])
    · rw [if_neg h]
      exact ih _ hfit (Bool.eq_false_iff.2 h)

/-- The numbers that fit are those up to the table's entry. -/
theorem coefFits_iff_le {t : Int} (hlo : -160 ≤ t) (hhi : t ≤ 80) (c : Nat) :
    coefFits t c = true ↔ (c : Int) ≤ coefficient t := by
  have hzero : coefFits t 0 = true := coefFits_mono (Int.le_refl _) hlo
    ((coefFits_decade 0 0).2 (by decide))
  have htop : coefFits t (0 + 2 ^ 32) = false := Bool.eq_false_iff.2 fun h =>
    absurd ((coefFits_decade 3 _).1 (coefFits_mono hlo hhi h)) (by decide)
  obtain ⟨hfit, hover⟩ := coefSearch_spec t 32 0 hzero htop
  rw [coefficient, Int.ofNat_le]
  refine ⟨fun h => Nat.le_of_not_lt fun hlt => ?_, fun h => coefFits_anti h hfit⟩
  exact Bool.eq_false_iff.1 hover (coefFits_anti hlt h)

theorem coefficient_mono {t u : Int} (hlo : -160 ≤ t) (htu : t ≤ u) (hhi : u ≤ 80) :
    coefficient t ≤ coefficient u :=
  (coefFits_iff_le (Int.le_trans hlo htu) hhi _).1
    (coefFits_mono hlo htu ((coefFits_iff_le hlo (Int.le_trans htu hhi) _).2 (Int.le_refl _)))

/-! ## The listed entries -/

/-- The entry at a whole decade is known from the test on the numbers themselves. -/
theorem coefficient_decade {m c : Nat} (hm : m ≤ 3) (hfit : (2 * c - 1) * 100 ≤ 2 ^ 29 * 10 ^ m)
    (hover : 2 ^ 29 * 10 ^ m < (2 * c + 1) * 100) : coefficient (80 * m - 160) = c := by
  have hle := (coefFits_iff_le (by omega) (by omega) c).1 ((coefFits_decade m c).2 hfit)
  have hlt : ¬ ((c + 1 : Nat) : Int) ≤ coefficient (80 * m - 160) := fun h =>
    absurd ((coefFits_decade m (c + 1)).1 ((coefFits_iff_le (by omega) (by omega) _).2 h))
      (Nat.not_le.2 hover)
  omega

theorem coefficient_eighty : coefficient 80 = 2684354560 :=
  coefficient_decade (m := 3) (by decide) (by decide) (by decide)

theorem coefficient_zero : coefficient 0 = 268435456 :=
  coefficient_decade (m := 2) (by decide) (by decide) (by decide)

theorem coefficient_neg_eighty : coefficient (-80) = 26843546 :=
  coefficient_decade (m := 1) (by decide) (by decide) (by decide)

theorem coefficient_lowest : coefficient (-160) = 2684355 :=
  coefficient_decade (m := 0) (by decide) (by decide) (by decide)

/-- Every entry lies between the ends of the table (R72). -/
theorem coefficient_inTable {t : Int} (hlo : -160 ≤ t) (hhi : t ≤ 80) : coefInTable (coefficient t) :=
  ⟨coefficient_lowest ▸ coefficient_mono (Int.le_refl _) hlo hhi,
    coefficient_eighty ▸ coefficient_mono hlo hhi (Int.le_refl _)⟩

/-! ## The distance of neighbours -/

/-- To raise a number by `d` changes its powers by no greater a factor than those of a smaller number. -/
theorem pow_add_mul_le {k l : Nat} (h : l ≤ k) (d n : Nat) : (k + d) ^ n * l ^ n ≤ k ^ n * (l + d) ^ n := by
  rw [← Nat.mul_pow, ← Nat.mul_pow]
  refine Nat.pow_le_pow_left ?_ n
  rw [Nat.add_mul, Nat.mul_add]
  exact Nat.add_le_add_left (by rw [Nat.mul_comm]; exact Nat.mul_le_mul_right d h) _

/-- From the lowest entry on, 78,001 more is less than a factor of the 80th root of ten. -/
theorem pow_raised_le {k : Nat} (hk : 5368709 ≤ k) : (k + 156002) ^ 80 ≤ k ^ 80 * 10 := by
  have hten : (5368709 + 156002) ^ 80 ≤ 10 * 5368709 ^ 80 := by decide
  have hraise : (k + 156002) ^ 80 * 5368709 ^ 80 ≤ k ^ 80 * 10 * 5368709 ^ 80 :=
    Nat.le_trans (pow_add_mul_le hk 156002 80)
      (Nat.le_trans (Nat.mul_le_mul_left _ hten) (Nat.le_of_eq (Nat.mul_assoc ..).symm))
  exact Nat.le_of_mul_le_mul_right hraise (Nat.pow_pos (by decide))

/-- What fits at one trim fits, raised by 78,001, at the next. -/
theorem coefFits_next {t : Int} (hlo : -160 ≤ t) {c : Nat} (hc : 2684355 ≤ c) (h : coefFits t c = true) :
    coefFits (t + 1) (c + 78001) = true := by
  rw [coefFits_iff hlo] at h
  have hexp : (t + 1 + 160).toNat = (t + 160).toNat + 1 := by omega
  have hpow : 10 ^ ((t + 160).toNat + 1) = 10 ^ (t + 160).toNat * 10 := Nat.pow_succ ..
  have hbase : 2 * (c + 78001) - 1 = 2 * c - 1 + 156002 := by omega
  rw [coefFits_iff (by omega), hexp, hbase, hpow]
  generalize 2 ^ 2320 = scale at h ⊢
  rw [← Nat.mul_assoc]
  calc (2 * c - 1 + 156002) ^ 80 * 10 ^ 160
      ≤ (2 * c - 1) ^ 80 * 10 * 10 ^ 160 := Nat.mul_le_mul_right _ (pow_raised_le (by omega))
    _ = (2 * c - 1) ^ 80 * 10 ^ 160 * 10 := Nat.mul_right_comm ..
    _ ≤ scale * 10 ^ (t + 160).toNat * 10 := Nat.mul_le_mul_right _ h

/-- Settles O53: an entry fits and the next number does not, and 78,001 more fits at the next trim. -/
theorem coefficientTableIsNearest : Obligations.CoefficientTableIsNearest := by
  refine ⟨fun t hlo hhi => ?_, fun t hlo hhi => ?_, coefficient_eighty, coefficient_zero,
    coefficient_neg_eighty, coefficient_lowest⟩
  · obtain ⟨hpos, -⟩ := coefficient_inTable hlo hhi
    obtain ⟨c, hc⟩ : ∃ c : Nat, coefficient t = c := ⟨_, rfl⟩
    have hfit : coefFits t c = true := (coefFits_iff_le hlo hhi c).2 (Int.le_of_eq hc.symm)
    have hover : ¬ coefFits t (c + 1) = true := fun h => by
      have hle := (coefFits_iff_le hlo hhi (c + 1)).1 h
      omega
    refine ⟨c, hc, by omega, (coefFits_iff hlo c).1 hfit, ?_⟩
    exact Nat.not_le.1 fun h => hover ((coefFits_iff hlo (c + 1)).2 h)
  · obtain ⟨hlow, -⟩ := coefficient_inTable hlo (Int.le_of_lt hhi)
    obtain ⟨c, hc⟩ : ∃ c : Nat, coefficient t = c := ⟨_, rfl⟩
    have hfit : coefFits t c = true := (coefFits_iff_le hlo (Int.le_of_lt hhi) c).2 (Int.le_of_eq hc.symm)
    have hnext := (coefFits_iff_le (by omega) (by omega) _).1 (coefFits_next hlo (by omega) hfit)
    omega

end Sys2Proof.CoefficientProofs
end

section
/-! PROOFS. The bound of the feed samples (R76) as a law that every step keeps: first the arithmetic, then
the law of a tap, then what each event at an input does to the feed mixer's part of it, then the commands. -/

namespace Sys2Proof.FeedProofs

open Sys2Proof Sys2Proof.Machine Sys2Proof.TapProofs Sys2Proof.CoefficientProofs

/-! ## Rounding within bounds (R73, R75) -/

/-- Rounding to the nearest integer stays between integer bounds. -/
theorem roundDiv_mem {lo hi num : Int} {den : Nat} (hden : 0 < den) (hlo : lo * den ≤ num)
    (hhi : num ≤ hi * den) : lo ≤ roundDiv num den ∧ roundDiv num den ≤ hi := by
  obtain ⟨hnear, -⟩ := roundDiv_nearest num hden
  generalize roundDiv num den = q at *
  refine ⟨Int.not_lt.1 fun hlt => ?_, Int.not_lt.1 fun hlt => ?_⟩
  · have hstep : (den : Int) * (q + 1) ≤ den * lo := Int.mul_le_mul_of_nonneg_left (by omega) (by omega)
    rw [Int.mul_add, Int.mul_comm _ lo] at hstep
    omega
  · have hstep : (den : Int) * (hi + 1) ≤ den * q := Int.mul_le_mul_of_nonneg_left (by omega) (by omega)
    rw [Int.mul_add, Int.mul_comm _ hi] at hstep
    omega

theorem roundDiv_mul_cancel (q : Int) {den : Nat} (hden : 0 < den) : roundDiv (q * den) den = q := by
  obtain ⟨hlo, hhi⟩ := roundDiv_mem hden (Int.le_refl (q * den)) (Int.le_refl _)
  omega

/-- A crossfade between two coefficients of the table stays in the table (R73). -/
theorem fadeAt_inTable {a c : Int} {i n : Nat} (ha : coefInTable a) (hc : coefInTable c) (hn : 0 < n)
    (hi : i ≤ n) : coefInTable (fadeAt a c i n) := by
  obtain ⟨j, rfl⟩ := Nat.exists_eq_add_of_le hi
  have hmix : a * ((i + j : Nat) : Int) + (c - a) * i = a * j + c * i := by
    rw [Int.natCast_add, Int.mul_add, Int.sub_mul]
    omega
  obtain ⟨halo, hahi⟩ := ha
  obtain ⟨hclo, hchi⟩ := hc
  have hj : (0 : Int) ≤ j := Int.natCast_nonneg j
  have hi' : (0 : Int) ≤ i := Int.natCast_nonneg i
  refine roundDiv_mem hn ?_ ?_
  · have hstart := Int.mul_le_mul_of_nonneg_right halo hj
    have hend := Int.mul_le_mul_of_nonneg_right hclo hi'
    rw [hmix]
    omega
  · have hstart := Int.mul_le_mul_of_nonneg_right hahi hj
    have hend := Int.mul_le_mul_of_nonneg_right hchi hi'
    rw [hmix]
    omega

/-- The divisor of a feed sample (R75). -/
theorem feedDivisor_pos {n : Nat} (hn : 0 < n) : 0 < 2 ^ 24 * n * n :=
  Nat.mul_pos (Nat.mul_pos (by decide) hn) hn

/-- A feed sample lies within the bound of R76. -/
theorem feedSample_mem {v a : Int} {j m n : Nat} (hn : 0 < n) (hv : v.natAbs ≤ 8388608)
    (ha : a.natAbs ≤ 2684354560) (hj : j ≤ n) (hm : m ≤ n) :
    -1342177280 ≤ feedSample v a j m n ∧ feedSample v a j m n ≤ 1342177280 := by
  have hends : 8388608 * 2684354560 = 1342177280 * 2 ^ 24 := by decide
  have habs : (v * a * j * m).natAbs ≤ 1342177280 * (2 ^ 24 * n * n) := by
    calc (v * a * j * m).natAbs
        = v.natAbs * a.natAbs * j * m := by simp only [Int.natAbs_mul, Int.natAbs_natCast]
      _ ≤ 8388608 * 2684354560 * n * n :=
          Nat.mul_le_mul (Nat.mul_le_mul (Nat.mul_le_mul hv ha) hj) hm
      _ = 1342177280 * (2 ^ 24 * n * n) := by
          rw [hends, Nat.mul_assoc _ (2 ^ 24), Nat.mul_assoc _ (2 ^ 24 * n)]
  have hpos := feedDivisor_pos hn
  unfold feedSample
  generalize v * a * j * m = num at habs
  generalize 2 ^ 24 * n * n = den at habs hpos
  exact roundDiv_mem hpos (by omega) (by omega)

/-- With both gates open a feed sample is the converter sample's product with the coefficient, where that is a
multiple of `2^24` (R75). -/
theorem feedSample_open {v a q : Int} {n : Nat} (hn : 0 < n) (h : v * a = q * 16777216) :
    feedSample v a n n n = q := by
  have hden : ((2 ^ 24 * n * n : Nat) : Int) = 16777216 * n * n := by
    rw [Int.natCast_mul, Int.natCast_mul]
    rfl
  have hnum : v * a * n * n = q * ((2 ^ 24 * n * n : Nat) : Int) := by
    rw [h, hden]
    simp only [Int.mul_assoc]
  rw [feedSample, hnum, roundDiv_mul_cancel q (feedDivisor_pos hn)]

theorem sample_natAbs_le (v : BitVec 24) : v.toInt.natAbs ≤ 8388608 := by
  have hlo := v.le_toInt
  have hhi := v.toInt_lt
  omega

theorem gateSamples_pos (rate96 : Bool) : 0 < gateSamples rate96 := by cases rate96 <;> decide

theorem fadeSamples_pos (rate96 : Bool) : 0 < fadeSamples rate96 := by cases rate96 <;> decide

theorem clampTrim_mem (x : Int) : -160 ≤ clampTrim x ∧ clampTrim x ≤ 80 := by
  unfold clampTrim clamp
  omega

/-! ## The law of a tap -/

section Taps
variable {rate96 : Bool} {t : Tap}

theorem mixLawful_newTap (n l : Int) : (newTap n l).MixLawful rate96 := by
  obtain ⟨hlo, hhi⟩ := clampTrim_mem (l - n)
  refine ⟨hlo, hhi, hlo, hhi, ?_, Nat.zero_le _, coefficient_inTable hlo hhi, ?_⟩
  · rintro c ⟨⟩
  · rintro f ⟨⟩

theorem mixLawful_withTrim (h : t.MixLawful rate96) {x : Int} (hx : -160 ≤ x ∧ x ≤ 80) :
    Tap.MixLawful rate96 { t with trim := x } := by
  obtain ⟨-, -, hrest⟩ := h
  exact ⟨hx.1, hx.2, hrest⟩

/-- A release within the range starts a crossfade from the coefficient as it stands (R36, R73). -/
theorem mixLawful_release (h : t.MixLawful rate96) {x : Int} (hx : -160 ≤ x ∧ x ≤ 80) {later : List Aligned}
    (hlater : ∀ c ∈ later, -160 ≤ c.trim ∧ c.trim ≤ 80) : (t.release x later).MixLawful rate96 := by
  obtain ⟨hlo, hhi, -, -, -, hgate, hcoef, -⟩ := h
  refine ⟨hlo, hhi, hx.1, hx.2, hlater, hgate, hcoef, ?_⟩
  rintro f ⟨⟩
  exact ⟨hcoef, fadeSamples_pos rate96⟩

theorem mixLawful_handNow (h : t.MixLawful rate96) (old : Int) : (t.handNow old).MixLawful rate96 := by
  obtain ⟨hlo, hhi, -⟩ := id h
  unfold Tap.handNow
  split
  · exact h
  · exact mixLawful_release h ⟨hlo, hhi⟩ (by simp)

theorem mixLawful_handAligned (h : t.MixLawful rate96) (align : Nat) (old : Int) :
    (t.handAligned align old).MixLawful rate96 := by
  unfold Tap.handAligned
  split
  · exact h
  · obtain ⟨hlo, hhi, hlo', hhi', hwait, hrest⟩ := h
    refine ⟨hlo, hhi, hlo', hhi', fun c hc => ?_, hrest⟩
    rcases List.mem_append.1 hc with hc | hc
    · exact hwait c hc
    · obtain rfl := List.mem_singleton.1 hc
      exact ⟨hlo, hhi⟩

theorem mixLawful_track (h : t.MixLawful rate96) (n : Int) : (t.track n).MixLawful rate96 := by
  unfold Tap.track
  split
  · exact h
  · exact mixLawful_withTrim h (clampTrim_mem _)
  · exact h

theorem mixLawful_raiseTrim (h : t.MixLawful rate96) (align : Nat) :
    (t.raiseTrim align).MixLawful rate96 := by
  unfold Tap.raiseTrim
  split
  · exact mixLawful_handAligned (mixLawful_withTrim h (clampTrim_mem _)) _ _
  · exact h

/-- SET LEVEL finds nothing to set at a non-owner's tap without a desired level. -/
theorem setLevel_noLevel (h : t.role ≠ .owner) (hl : t.desired = none) (n : Int) (relative : Bool) (v : Int) :
    (t.setLevel n relative v).1 = t := by
  obtain ⟨role, desired, _⟩ := t
  subst hl
  cases role with
  | owner => exact absurd rfl h
  | tracking => rfl
  | clamped => rfl

theorem mixLawful_setLevel (h : t.MixLawful rate96) (n : Int) (relative : Bool) (v : Int) :
    (t.setLevel n relative v).1.MixLawful rate96 := by
  by_cases hrole : t.role = .owner
  · rw [setLevel_owner hrole]
    exact mixLawful_withTrim h (clampTrim_mem _)
  · cases hl : t.desired with
    | none => rwa [setLevel_noLevel hrole hl]
    | some l =>
      rw [setLevel_nonOwner hrole hl]
      exact mixLawful_withTrim h (clampTrim_mem _)

theorem mixLawful_releaseNth (h : t.MixLawful rate96) (n : Nat) : (t.releaseNth n).MixLawful rate96 := by
  obtain ⟨-, -, -, -, hwait, -⟩ := id h
  unfold Tap.releaseNth
  split
  · rename_i c hc
    split
    · exact mixLawful_release h (hwait c (List.mem_of_getElem? hc))
        fun e he => hwait e (List.mem_of_mem_drop he)
    · exact h
  · exact h

theorem mixLawful_releaseDue (h : t.MixLawful rate96) : t.releaseDue.MixLawful rate96 := by
  obtain ⟨-, -, -, -, hwait, -⟩ := id h
  unfold Tap.releaseDue
  split
  · rename_i c later hd
    obtain ⟨-, -, earlier, hw⟩ := lastDue_eq_some.1 hd
    rw [hw] at hwait
    exact mixLawful_release h (hwait c (by simp)) fun e he => hwait e (by simp [he])
  · exact h

/-- A gate count moves within its range (R74). -/
theorem moveGate_le {top count : Nat} (rising : Bool) (h : count ≤ top) : moveGate rising top count ≤ top := by
  unfold moveGate
  split <;> omega

theorem mixLawful_move (h : t.MixLawful rate96) : (t.move rate96).MixLawful rate96 := by
  obtain ⟨hlo, hhi, hlo', hhi', hwait, hgate, hcoef, hfade⟩ := h
  refine ⟨hlo, hhi, hlo', hhi', fun c hc => ?_, moveGate_le _ hgate, ?_, ?_⟩
  · obtain ⟨a, ha, rfl⟩ := List.mem_map.1 hc
    exact hwait a ha
  · cases hf : t.fade with
    | none => simpa only [Tap.move, hf] using hcoef
    | some f =>
      obtain ⟨hstart, hdone⟩ := hfade f hf
      simpa only [Tap.move, hf] using
        fadeAt_inTable hstart (coefficient_inTable hlo' hhi') (fadeSamples_pos rate96) hdone
  · intro g hg
    rw [move_eq] at hg
    obtain ⟨f, hf, hg⟩ := Option.bind_eq_some_iff.1 hg
    split at hg
    · cases hg
      exact ⟨(hfade f hf).1, ‹_›⟩
    · cases hg

theorem mixLawful_advance (h : t.MixLawful rate96) : (t.advance rate96).MixLawful rate96 :=
  mixLawful_move (mixLawful_releaseDue h)

end Taps

/-! ## The law of an input -/

/-- What `State.FeedLawful` says of one input. -/
def FeedLawfulAt (rate96 : Bool) (x : Inp) : Prop :=
  x.seqGate ≤ gateSamples rate96 ∧
    (x.seq = .idle → x.seqGate = gateSamples rate96) ∧
    (x.seq = .switching → x.seqGate = 0) ∧
    (∀ d, -1342177280 ≤ x.feed.get d ∧ x.feed.get d ≤ 1342177280) ∧
    (∀ d, ∀ t ∈ x.tap d, t.MixLawful rate96)

theorem feedLawful_iff (s : State) : s.FeedLawful ↔ ∀ k, FeedLawfulAt s.sys.rate96 (s.inp k) := Iff.rfl

/-- What the law of an input speaks of: the sequencer's state and gate, the feed samples and the taps. -/
def mixer (x : Inp) : SeqState × Nat × Table Int 6 × Table (Option Tap) 6 :=
  (x.seq, x.seqGate, x.feed, x.taps)

section Law
variable {rate96 : Bool} {x y : Inp}

theorem FeedLawfulAt.of_mixer (h : FeedLawfulAt rate96 x) (hm : mixer y = mixer x) :
    FeedLawfulAt rate96 y := by
  obtain ⟨hseq, hgate, hfeed, htaps⟩ : y.seq = x.seq ∧ y.seqGate = x.seqGate ∧ y.feed = x.feed ∧
      y.taps = x.taps := by simpa [mixer] using hm
  unfold FeedLawfulAt Inp.tap at *
  rwa [hseq, hgate, hfeed, htaps]

/-- A sequencer that comes to a state other than IDLE and SWITCHING needs nothing of its gate. -/
theorem FeedLawfulAt.withSeq (h : FeedLawfulAt rate96 x) {q : SeqState} (hidle : q ≠ .idle)
    (hsw : q ≠ .switching) : FeedLawfulAt rate96 { x with seq := q } := by
  obtain ⟨hgate, -, -, hrest⟩ := h
  exact ⟨hgate, fun he => absurd he hidle, fun he => absurd he hsw, hrest⟩

theorem FeedLawfulAt.setTap (h : FeedLawfulAt rate96 x) (d : Slot) {u : Option Tap}
    (hu : ∀ t ∈ u, t.MixLawful rate96) : FeedLawfulAt rate96 (x.setTap d u) := by
  obtain ⟨hgate, hidle, hsw, hfeed, htaps⟩ := h
  refine ⟨hgate, hidle, hsw, hfeed, fun c t ht => ?_⟩
  rw [Inp.setTap_tap] at ht
  split at ht
  · exact hu t ht
  · exact htaps c t ht

theorem FeedLawfulAt.modTap (h : FeedLawfulAt rate96 x) (d : Slot) {f : Tap → Tap}
    (hf : ∀ t : Tap, t.MixLawful rate96 → (f t).MixLawful rate96) : FeedLawfulAt rate96 (x.modTap d f) := by
  obtain ⟨-, -, -, -, htaps⟩ := id h
  refine h.setTap d fun u hu => ?_
  obtain ⟨t, ht, rfl⟩ := Option.map_eq_some_iff.1 hu
  exact hf t (htaps d t ht)

theorem FeedLawfulAt.mapTaps (h : FeedLawfulAt rate96 x) {f : Tap → Tap}
    (hf : ∀ t : Tap, t.MixLawful rate96 → (f t).MixLawful rate96) :
    FeedLawfulAt rate96 { x with taps := x.taps.map (Option.map f) } := by
  obtain ⟨hgate, hidle, hsw, hfeed, htaps⟩ := h
  refine ⟨hgate, hidle, hsw, hfeed, fun d u hu => ?_⟩
  rw [Inp.tap, Table.get_map] at hu
  obtain ⟨t, ht, rfl⟩ := Option.map_eq_some_iff.1 hu
  exact hf t (htaps d t ht)

theorem feedLawfulAt_reset : FeedLawfulAt rate96 (.reset rate96) := by
  refine ⟨Nat.le_refl _, fun _ => rfl, ?_, fun d => ?_, fun d t ht => ?_⟩
  · rintro ⟨⟩
  · simp [Inp.reset]
  · simp [Inp.reset, Inp.tap] at ht

/-! ## A sample (R73 to R75) -/

/-- The sequence gate moves within its range, stays full in IDLE and at 0 in SWITCHING (R35, R74). -/
theorem moveSeqGate_lawful (h : FeedLawfulAt rate96 x) :
    x.moveSeqGate rate96 ≤ gateSamples rate96 ∧
      (x.seq = .idle → x.moveSeqGate rate96 = gateSamples rate96) ∧
      (x.seq = .switching → x.moveSeqGate rate96 = 0) := by
  obtain ⟨hgate, hidle, hsw, -⟩ := h
  refine ⟨moveGate_le _ hgate, fun hq => ?_, fun hq => ?_⟩
  · simp [Inp.moveSeqGate, moveGate, hq, hidle hq]
  · simp [Inp.moveSeqGate, moveGate, hq, hsw hq]

/-- Every feed sample formed of lawful taps lies within the bound (R76). -/
theorem feedOf_mem (h : x.seqGate ≤ gateSamples rate96) (ht : ∀ d, ∀ t ∈ x.tap d, t.MixLawful rate96)
    (v : BitVec 24) (d : Slot) :
    -1342177280 ≤ x.feedOf rate96 v.toInt d ∧ x.feedOf rate96 v.toInt d ≤ 1342177280 := by
  unfold Inp.feedOf
  split
  · rename_i t htap
    obtain ⟨-, -, -, -, -, hgate, ⟨hclo, hchi⟩, -⟩ := ht d t htap
    split
    · decide
    · exact feedSample_mem (gateSamples_pos rate96) (sample_natAbs_le v) (by omega) hgate h
  · decide

theorem FeedLawfulAt.sample (h : FeedLawfulAt rate96 x) (v : BitVec 24) :
    FeedLawfulAt rate96 (x.sample rate96 v.toInt) := by
  obtain ⟨hgate, hidle, hsw⟩ := moveSeqGate_lawful h
  have htaps : ∀ d, ∀ t ∈ (x.sample rate96 v.toInt).tap d, t.MixLawful rate96 := by
    obtain ⟨-, -, -, -, hmap⟩ := h.mapTaps fun t => mixLawful_advance (t := t)
    exact hmap
  refine ⟨hgate, hidle, hsw, fun d => ?_, htaps⟩
  rw [sample_feed]
  exact feedOf_mem (x := x.sample rate96 v.toInt) hgate htaps v d

end Law

/-! ## Glides and the command path leave the mixer alone -/

section Path

theorem ite_mixer {p : Prop} [Decidable p] {a b e : Ev} (ha : mixer a.inp = mixer e.inp)
    (hb : mixer b.inp = mixer e.inp) : mixer (if p then a else b).inp = mixer e.inp := by
  split
  · exact ha
  · exact hb

variable (v : Env) (e : Ev)

theorem endGlide_mixer : mixer (e.endGlide v).inp = mixer e.inp := by
  unfold Ev.endGlide
  split
  · rfl
  · split <;> rfl

theorem issueRecheckPhantom_mixer : mixer (e.issueRecheckPhantom v).inp = mixer e.inp := by
  unfold Ev.issueRecheckPhantom
  split
  · split <;> rfl
  · rfl

theorem issueOldest_mixer (gs : List Group) : mixer (e.issueOldest v gs).inp = mixer e.inp := by
  induction gs generalizing e with
  | nil => rfl
  | cons g gs ih =>
    cases g with
    | step =>
      unfold Ev.issueOldest
      split
      · split
        · rw [ih, endGlide_mixer]
        · rfl
      · exact ih e
    | switching =>
      unfold Ev.issueOldest
      split
      · rfl
      · exact ih e
    | recheck => rfl
    | startUp => rfl

theorem pump_mixer : mixer (e.pump v).inp = mixer e.inp := by
  unfold Ev.pump
  exact ite_mixer rfl (issueOldest_mixer ..)

theorem join_mixer (g : Group) : mixer (e.join v g).inp = mixer e.inp := pump_mixer ..

theorem readyStep_mixer : mixer (e.readyStep v).inp = mixer e.inp := by
  unfold Ev.readyStep
  split
  · exact ite_mixer (join_mixer ..) rfl
  · rfl

theorem takeTarget_mixer (x : Inp) (target rate : Nat) : mixer (x.takeTarget target rate) = mixer x := by
  unfold Inp.takeTarget
  split
  · split <;> rfl
  · split
    · split <;> rfl
    · rfl

theorem setGainAt_mixer (d : Slot) (relative : Bool) (w : Byte) (rate : Option Byte) :
    mixer (setGainAt d relative w rate v e).inp = mixer e.inp := by
  unfold setGainAt
  exact ite_mixer rfl (ite_mixer rfl (takeTarget_mixer ..))

theorem stopGlideAt_mixer (d : Slot) : mixer (stopGlideAt d v e).inp = mixer e.inp := by
  refine ite_mixer rfl ?_
  unfold Ev.stopGlide
  split
  · rfl
  · exact ite_mixer rfl (endGlide_mixer ..)

theorem stepAcked_mixer : mixer (e.stepAcked v).inp = mixer e.inp := by
  unfold Ev.stepAcked
  split
  · rfl
  · exact ite_mixer (ite_mixer (endGlide_mixer ..) (ite_mixer rfl (ite_mixer (readyStep_mixer ..) rfl))) rfl

theorem clampGlide_mixer : mixer (e.clampGlide v).inp = mixer e.inp := by
  unfold Ev.clampGlide
  split
  · rfl
  · exact ite_mixer (endGlide_mixer ..) rfl

theorem resumeGlide_mixer : mixer (e.resumeGlide v).inp = mixer e.inp := by
  unfold Ev.resumeGlide
  split
  · rfl
  · exact ite_mixer (readyStep_mixer ..) rfl

theorem bundleEndAt_mixer : mixer (bundleEndAt v e).inp = mixer e.inp := by
  unfold bundleEndAt
  split
  · rfl
  · split
    · exact ite_mixer (endGlide_mixer ..) (readyStep_mixer ..)
    · exact ite_mixer (endGlide_mixer ..) rfl
    · rfl

theorem stepTimerAt_mixer : mixer (stepTimerAt v e).inp = mixer e.inp := by
  unfold stepTimerAt
  split
  · exact ite_mixer (readyStep_mixer ..) rfl
  · rfl

theorem recheckAt_mixer (d : Slot) : mixer (recheckAt d v e).inp = mixer e.inp := by
  unfold recheckAt
  exact ite_mixer rfl (ite_mixer rfl (join_mixer ..))

theorem moveOn_mixer (i : Issuer) : mixer (e.moveOn v i).inp = mixer e.inp := by
  unfold Ev.moveOn
  split
  · exact issueRecheckPhantom_mixer ..
  · rfl
  · rfl
  · exact pump_mixer ..

theorem record_mixer (w : Write) (x : Inp) : mixer (x.record w) = mixer x := by cases w <;> rfl

/-! ## The guard leaves the mixer alone -/

theorem guardGlide_mixer (target : Nat) : mixer (e.guardGlide v target).inp = mixer e.inp := by
  unfold Ev.guardGlide
  exact ite_mixer (readyStep_mixer ..) rfl

theorem threshold_mixer : mixer (e.threshold v).inp = mixer e.inp := by
  unfold Ev.threshold
  exact ite_mixer (guardGlide_mixer ..) rfl

theorem clipAt_mixer : mixer (clipAt v e).inp = mixer e.inp := by
  unfold clipAt
  exact ite_mixer (ite_mixer (threshold_mixer ..) rfl) rfl

theorem configureInputAt_mixer (c : InputConfig) : mixer (configureInputAt c v e).inp = mixer e.inp := by
  unfold configureInputAt
  exact ite_mixer rfl rfl

end Path

/-! ## Events that keep the law of an input -/

/-- An event keeps the law of the input at which it happens. -/
def KeepsFeedLaw (f : Env → Ev → Ev) : Prop :=
  ∀ v e, FeedLawfulAt v.sys.rate96 e.inp → FeedLawfulAt v.sys.rate96 (f v e).inp

theorem KeepsFeedLaw.of_mixer {f : Env → Ev → Ev} (hf : ∀ v e, mixer (f v e).inp = mixer e.inp) :
    KeepsFeedLaw f := fun v e h => h.of_mixer (hf v e)

section Events
variable {rate96 : Bool} {x : Inp}

/-! ### Taps -/

theorem openTapAt_keeps (d : Slot) (level : Option (BitVec 16)) : KeepsFeedLaw (openTapAt d level) := by
  intro v e h
  unfold openTapAt
  split
  · exact h
  · refine h.setTap d fun t ht => ?_
    cases ht
    exact mixLawful_newTap _ _

theorem setLevelAt_keeps (d : Slot) (relative : Bool) (w : BitVec 16) :
    KeepsFeedLaw (setLevelAt d relative w) := by
  intro v e h
  obtain ⟨-, -, -, -, htaps⟩ := id h
  cases ht : e.inp.tap d with
  | none => rwa [setLevelAt_of_none ht]
  | some t =>
    rw [setLevelAt_of_some ht]
    refine h.setTap d fun u hu => ?_
    cases hu
    exact mixLawful_handNow (mixLawful_setLevel (htaps d t ht) _ _ _) _

theorem setTapMuteAt_keeps (d : Slot) (on : Bool) : KeepsFeedLaw (setTapMuteAt d on) := by
  intro v e h
  obtain ⟨-, -, -, -, htaps⟩ := id h
  unfold setTapMuteAt
  split
  · exact h
  · rename_i t ht
    refine h.setTap d fun u hu => ?_
    cases hu
    exact htaps d t ht

/-! ### Ownership -/

theorem FeedLawfulAt.captureOwner (h : FeedLawfulAt rate96 x) : FeedLawfulAt rate96 x.captureOwner := by
  unfold Inp.captureOwner
  split
  · exact h.modTap _ fun _ ht => ht
  · exact h

theorem FeedLawfulAt.giveTo (h : FeedLawfulAt rate96 x) (incoming : Option Slot) :
    FeedLawfulAt rate96 (x.giveTo incoming) := by
  cases incoming with
  | none => exact h
  | some d => exact FeedLawfulAt.modTap (x := { x with owner := some d }) h d fun _ ht => ht

theorem handOverGlide_mixer (x : Inp) : mixer x.handOverGlide = mixer x := by
  unfold Inp.handOverGlide
  split
  · split <;> rfl
  · rfl

theorem FeedLawfulAt.handedOver (h : FeedLawfulAt rate96 x) (incoming : Option Slot) :
    FeedLawfulAt rate96 (x.handedOver incoming) :=
  (h.captureOwner.giveTo incoming).of_mixer (handOverGlide_mixer _)

theorem FeedLawfulAt.leave {e : Ev} (h : FeedLawfulAt rate96 e.inp) (d : Slot) :
    FeedLawfulAt rate96 (e.leave d).inp := by
  rw [leave_eq]
  dsimp only
  split
  · exact FeedLawfulAt.handedOver (x := { e.inp with queue := e.inp.queue.tail }) h _
  · exact h

theorem leave_keeps (d : Slot) : KeepsFeedLaw fun _ e => e.leave d := fun _ _ h => h.leave d

theorem retire_keeps (d : Slot) : KeepsFeedLaw fun _ e => e.retire d := fun _ _ h =>
  (h.leave d).setTap d (by rintro t ⟨⟩)

theorem closeTapAt_keeps (d : Slot) : KeepsFeedLaw (closeTapAt d) := by
  intro v e h
  unfold closeTapAt
  split
  · exact retire_keeps d v e h
  · exact h

theorem joinQueue_mixer (v : Env) (d : Slot) (x : Inp) : mixer (joinQueue v d x) = mixer x := by
  unfold joinQueue
  split <;> rfl

theorem claimAt_keeps (d : Slot) (force : Bool) : KeepsFeedLaw (claimAt d force) := by
  intro v e h
  unfold claimAt
  dsimp only
  split
  · exact h
  split
  · exact h
  split
  · exact h
  split
  · exact h.handedOver _
  split
  · exact h
  split
  · exact FeedLawfulAt.handedOver (x := e.inp.leaveQueue d) h _
  · exact h.of_mixer (joinQueue_mixer ..)

theorem releaseAt_keeps (d : Slot) : KeepsFeedLaw (releaseAt d) := by
  intro v e h
  unfold releaseAt
  split
  · rw [handOn_eq]
    exact FeedLawfulAt.handedOver (x := { e.inp with queue := e.inp.queue.tail }) h _
  · split <;> exact h

theorem FeedLawfulAt.controlReset (h : FeedLawfulAt rate96 x) : FeedLawfulAt rate96 x.controlReset :=
  h.captureOwner

/-! ### The sequencer -/

theorem FeedLawfulAt.startSequence (h : FeedLawfulAt rate96 x) (value : FrontValue) (d : Slot) :
    FeedLawfulAt rate96 (x.startSequence value d) :=
  h.withSeq (q := .muting) nofun nofun

theorem FeedLawfulAt.startSettling (h : FeedLawfulAt rate96 x) (y : Sys) :
    FeedLawfulAt rate96 (x.startSettling y) := by
  unfold Inp.startSettling
  split
  · exact h.withSeq (q := .settling) nofun nofun
  · exact h

theorem FeedLawfulAt.startUnmuting (h : FeedLawfulAt rate96 x) : FeedLawfulAt rate96 x.startUnmuting := by
  obtain ⟨-, -, -, hrest⟩ := h
  exact ⟨Nat.zero_le _, nofun, nofun, hrest⟩

theorem requestAt_keeps (d : Slot) (value : FrontValue) : KeepsFeedLaw (requestAt d value) := by
  intro v e h
  unfold requestAt Ev.request
  split
  · exact h
  split
  · exact h
  split
  · split <;> exact h
  split
  · exact h
  · exact h.startSequence value d

/-- A MUTING or SWITCHING sequencer halts at a fault, and any other stays (R10). -/
theorem FeedLawfulAt.enterFault {v : Env} {e : Ev} (h : FeedLawfulAt rate96 e.inp) :
    FeedLawfulAt rate96 (e.enterFault v).inp := by
  have hend : FeedLawfulAt rate96 (e.endGlide v).inp := h.of_mixer (endGlide_mixer v e)
  generalize hy : (e.endGlide v).inp = y at hend
  by_cases hseq : y.seq = .muting ∨ y.seq = .switching
  · refine (hend.withSeq (q := .halted) nofun nofun).of_mixer ?_
    simp [Ev.enterFault, mixer, hy, hseq]
  · refine hend.of_mixer ?_
    simp [Ev.enterFault, mixer, hy, hseq]

theorem failAt_keeps : KeepsFeedLaw failAt := by
  intro v e h
  unfold failAt
  split
  · exact h
  · dsimp only
    split
    · refine FeedLawfulAt.of_mixer (FeedLawfulAt.enterFault ?_) (pump_mixer ..)
      exact h
    · exact h

/-- The mute ramp's end finds the sequence gate at 0, as SWITCHING needs it (R14, R74). -/
theorem muteRampEndAt_keeps : KeepsFeedLaw muteRampEndAt := by
  intro v e h
  unfold muteRampEndAt
  split
  · split
    · rename_i hend
      obtain ⟨-, hzero⟩ := hend
      split
      · exact h.startUnmuting
      · obtain ⟨hgate, -, -, hrest⟩ := h
        have hsw : FeedLawfulAt v.sys.rate96 { e.inp with seq := .switching } :=
          ⟨hgate, nofun, fun _ => hzero, hrest⟩
        exact hsw.of_mixer (join_mixer ..)
    · exact h
  · exact h

theorem FeedLawfulAt.recheckRequest {v : Env} {q : Request} {e : Ev} (h : FeedLawfulAt rate96 e.inp) :
    FeedLawfulAt rate96 (e.recheckRequest v q).inp := by
  unfold Ev.recheckRequest
  dsimp only
  split
  · exact h
  split
  · exact FeedLawfulAt.startSequence (x := { e.inp with request := none }) h _ _
  · exact h
  · exact h

theorem FeedLawfulAt.resumed {v : Env} {e : Ev} (h : FeedLawfulAt rate96 e.inp) :
    FeedLawfulAt rate96 (if e.inp.seq = .idle then e.resumeGlide v else e).inp :=
  h.of_mixer (ite_mixer (resumeGlide_mixer ..) rfl)

/-- The unmute ramp's end finds the sequence gate full, as IDLE needs it (R16, R74). -/
theorem unmuteRampEndAt_keeps : KeepsFeedLaw unmuteRampEndAt := by
  intro v e h
  unfold unmuteRampEndAt
  split
  · rename_i hend
    obtain ⟨-, hfull⟩ := hend
    obtain ⟨hgate, -, -, hrest⟩ := h
    have hidle : FeedLawfulAt v.sys.rate96 { e.inp with seq := .idle, inFlight := none } :=
      ⟨hgate, fun _ => hfull, nofun, hrest⟩
    refine FeedLawfulAt.resumed ?_
    split
    · exact FeedLawfulAt.recheckRequest hidle
    · exact hidle
  · exact h

/-! ### Acknowledgements -/

theorem FeedLawfulAt.recordTracked (h : FeedLawfulAt rate96 x) (align : Nat) (w : Write) :
    FeedLawfulAt rate96 (x.recordTracked align w) := by
  have hrec : FeedLawfulAt rate96 (x.record w) := h.of_mixer (record_mixer w x)
  unfold Inp.recordTracked
  dsimp only
  split
  · exact hrec
  · exact hrec.mapTaps fun t ht => mixLawful_handAligned (mixLawful_track ht _) _ _

theorem FeedLawfulAt.recheckDone (h : FeedLawfulAt rate96 x) (y : Sys) :
    FeedLawfulAt rate96 (x.recheckDone y) := by
  unfold Inp.recheckDone
  dsimp only
  split
  · split
    · exact FeedLawfulAt.startUnmuting (x := { x with recheck := false, fault := false }) h
    · exact FeedLawfulAt.startSettling (x := { x with recheck := false, fault := false }) h y
  · exact h

theorem FeedLawfulAt.toIssuer {v : Env} {e : Ev} (h : FeedLawfulAt rate96 e.inp) (i : Issuer) :
    FeedLawfulAt rate96 (e.toIssuer v i).inp := by
  unfold Ev.toIssuer
  split
  · refine FeedLawfulAt.of_mixer ?_ (stepAcked_mixer ..)
    exact h.mapTaps fun t ht => mixLawful_raiseTrim ht _
  · exact h.of_mixer (stepAcked_mixer ..)
  · rw [Ev.mod_inp]
    split
    · exact h.startSettling v.sys
    · exact h
  · split
    · exact h.recheckDone v.sys
    · exact h
  · exact h

theorem ackAt_keeps : KeepsFeedLaw ackAt := by
  intro v e h
  unfold ackAt
  split
  · exact h
  · rename_i o _
    refine FeedLawfulAt.of_mixer (FeedLawfulAt.toIssuer ?_ _) (moveOn_mixer ..)
    have hrec := h.recordTracked v.sys.align o.write
    split
    · exact hrec
    · exact hrec.of_mixer (clampGlide_mixer ..)

end Events

/-! ## The law of the state -/

section States
variable {s : State}

theorem FeedLawful.setInp (h : s.FeedLawful) (k : Input) {x : Inp} (hx : FeedLawfulAt s.sys.rate96 x) :
    (s.setInp k x).FeedLawful := by
  refine (feedLawful_iff _).2 fun j => ?_
  rw [State.setInp_inp]
  split
  · exact hx
  · exact h j

theorem FeedLawful.commit (h : s.FeedLawful) (k : Input) {e : Ev} (he : FeedLawfulAt s.sys.rate96 e.inp) :
    (s.commit k e).FeedLawful := by
  refine (feedLawful_iff _).2 fun j => ?_
  rw [State.commit_sys]
  by_cases hj : j = k
  · subst hj
    rw [State.commit_inp_self]
    exact he
  · rw [State.commit_inp_ne s e hj]
    exact h j

theorem FeedLawful.atInput (h : s.FeedLawful) (k : Input) {f : Env → Ev → Ev} (hf : KeepsFeedLaw f) :
    (s.atInput k f).FeedLawful :=
  FeedLawful.commit h k (hf s.env _ (h k))

theorem FeedLawful.atInputs (h : s.FeedLawful) (p : Inp → Bool) {f : Env → Ev → Ev} (hf : KeepsFeedLaw f) :
    (s.atInputs p f).FeedLawful :=
  State.atInputs_kept (P := State.FeedLawful) p f (fun _ k ht => FeedLawful.atInput ht k hf) s h

theorem FeedLawful.mapInputs (h : s.FeedLawful) {f : Inp → Inp}
    (hf : ∀ x, FeedLawfulAt s.sys.rate96 x → FeedLawfulAt s.sys.rate96 (f x)) :
    State.FeedLawful { s with inputs := s.inputs.map f } := by
  refine (feedLawful_iff _).2 fun k => ?_
  rw [State.inp, Table.get_map]
  exact hf _ (h k)

/-- The law speaks of the inputs and of the strap alone. -/
theorem FeedLawful.congr (h : s.FeedLawful) {t : State} (hi : t.inputs = s.inputs)
    (hr : t.sys.rate96 = s.sys.rate96) : t.FeedLawful := by
  unfold State.FeedLawful State.inp
  rw [hi, hr]
  exact h

theorem FeedLawful.modSlot (h : s.FeedLawful) (d : Slot) (f : SlotRec → SlotRec) :
    (s.modSlot d f).FeedLawful := h

theorem FeedLawful.setRun (h : s.FeedLawful) (r : Option Run) : (s.setRun r).FeedLawful := h

theorem feedLawful_powerOn (psag rate96 : Bool) (freeCount : Nat) (pending : List Instr) :
    (State.powerOn psag rate96 freeCount pending).FeedLawful := by
  refine (feedLawful_iff _).2 fun k => ?_
  rw [State.inp, State.powerOn, Table.get_fill]
  exact feedLawfulAt_reset

theorem FeedLawful.controlReset (h : s.FeedLawful) : s.controlReset.FeedLawful :=
  FeedLawful.mapInputs h fun _ hx => hx.controlReset

theorem FeedLawful.tick (h : s.FeedLawful) : s.tick.FeedLawful :=
  FeedLawful.mapInputs h fun _ hx => hx

end States

/-! ## The commands -/

/-- Where the outcome is a next state, that state meets the law. -/
def NextLawful (o : Host.Outcome State Fault Refusal) : Prop := ∀ t, o = .next t → t.FeedLawful

theorem nextLawful_next {t : State} (h : t.FeedLawful) : NextLawful (.next t) := by
  rintro _ ⟨⟩
  exact h

section Commands
variable {s : State}

/-! ### What the executor's commands share -/

theorem applyKind_lawful (h : s.FeedLawful) {kind : Byte} {body : Run → Op → State}
    (hb : ∀ r o, (body r o).FeedLawful) : NextLawful (.next (s.applyKind kind body)) :=
  nextLawful_next (State.applyKind_kept (P := State.FeedLawful) kind h (fun _ q ht => FeedLawful.setRun ht q)
    fun r o _ => hb r o)

theorem onPattern_lawful (h : s.FeedLawful) {r : Run} {p : Pattern} {exact : Bool}
    {one : Input → State → Applied} (hone : ∀ k, (one k s).state.FeedLawful) :
    (s.onPattern r p exact one).FeedLawful :=
  State.onPattern_kept (P := State.FeedLawful) p exact h (fun _ q ht => FeedLawful.setRun ht q) hone

theorem onEvent_lawful (h : s.FeedLawful) {r : Run} {p : Pattern} {exact : Bool} {f : Env → Ev → Ev}
    (hf : KeepsFeedLaw f) : (s.onPattern r p exact (applyEvent f)).FeedLawful :=
  onPattern_lawful h fun k => FeedLawful.atInput h k hf

theorem onDesk_lawful (h : s.FeedLawful) {r : Run} {d : BitVec 3} {one : Slot → State → Applied}
    (hone : ∀ c, (one c s).state.FeedLawful) : (s.onDesk r d one).FeedLawful := by
  unfold State.onDesk
  split
  · exact h
  · exact hone _

/-! ### Operations on taps and ownership -/

theorem execOpenTap_lawful (h : s.FeedLawful) : NextLawful (execOpenTap s) :=
  applyKind_lawful h fun r o => by
    split
    · exact onEvent_lawful h (openTapAt_keeps _ _)
    · exact h

theorem execCloseTap_lawful (h : s.FeedLawful) : NextLawful (execCloseTap s) :=
  applyKind_lawful h fun r o => by
    split
    · refine onPattern_lawful h fun k => ?_
      have hclose : (s.atInput k (closeTapAt r.slot)).FeedLawful :=
        FeedLawful.atInput h k (closeTapAt_keeps r.slot)
      unfold closeTapOne
      dsimp only
      split <;> exact hclose
    · exact h

theorem execSetLevel_lawful (h : s.FeedLawful) : NextLawful (execSetLevel s) :=
  applyKind_lawful h fun r o => by
    split
    · exact onEvent_lawful h (setLevelAt_keeps _ _ _)
    · exact h

theorem execSetTapMute_lawful (h : s.FeedLawful) : NextLawful (execSetTapMute s) :=
  applyKind_lawful h fun r o => by
    split
    · exact onEvent_lawful h (setTapMuteAt_keeps _ _)
    · exact h

theorem execReadTap_lawful (h : s.FeedLawful) : NextLawful (execReadTap s) :=
  applyKind_lawful h fun r o => by
    split
    · refine onPattern_lawful h fun k => ?_
      unfold readTapOne
      split <;> exact h
    · exact h

theorem execClaim_lawful (h : s.FeedLawful) : NextLawful (execClaim s) :=
  applyKind_lawful h fun r o => by
    split
    · exact onEvent_lawful h (claimAt_keeps _ _)
    · exact h

theorem execRelease_lawful (h : s.FeedLawful) : NextLawful (execRelease s) :=
  applyKind_lawful h fun r o => by
    split
    · exact onEvent_lawful h (releaseAt_keeps _)
    · exact h

/-! ### Operations on gain, front end and settings of an input -/

theorem execSetGain_lawful (h : s.FeedLawful) : NextLawful (execSetGain s) :=
  applyKind_lawful h fun r o => by
    split
    · exact onEvent_lawful h (.of_mixer fun _ _ => setGainAt_mixer ..)
    · exact h

theorem execStopGlide_lawful (h : s.FeedLawful) : NextLawful (execStopGlide s) :=
  applyKind_lawful h fun r o => by
    split
    · exact onEvent_lawful h (.of_mixer fun _ _ => stopGlideAt_mixer ..)
    · exact h

theorem execSetPhantom_lawful (h : s.FeedLawful) : NextLawful (execSetPhantom s) :=
  applyKind_lawful h fun r o => by
    split
    · exact onEvent_lawful h (requestAt_keeps _ _)
    · exact h

theorem execSetMode_lawful (h : s.FeedLawful) : NextLawful (execSetMode s) :=
  applyKind_lawful h fun r o => by
    split
    · exact onEvent_lawful h (requestAt_keeps _ _)
    · exact h

theorem execRecheckFrontEnd_lawful (h : s.FeedLawful) : NextLawful (execRecheckFrontEnd s) :=
  applyKind_lawful h fun r o => by
    split
    · exact onEvent_lawful h (.of_mixer fun _ _ => recheckAt_mixer ..)
    · exact h

theorem execConfigureInput_lawful (h : s.FeedLawful) : NextLawful (execConfigureInput s) :=
  applyKind_lawful h fun r o => by
    split
    · exact onEvent_lawful h (.of_mixer fun _ _ => configureInputAt_mixer ..)
    · exact h

/-! ### Reading and notices -/

theorem execReadInput_lawful (h : s.FeedLawful) : NextLawful (execReadInput s) :=
  applyKind_lawful h fun r o => by
    split
    · exact onPattern_lawful h fun _ => h
    · exact h

theorem execReadMarks_lawful (h : s.FeedLawful) : NextLawful (execReadMarks s) :=
  applyKind_lawful h fun r o => by split <;> exact h

theorem execClearMarks_lawful (h : s.FeedLawful) : NextLawful (execClearMarks s) :=
  applyKind_lawful h fun r o => by
    split
    · exact onPattern_lawful h fun _ => h
    · exact h

theorem execSetNoticeEnables_lawful (h : s.FeedLawful) : NextLawful (execSetNoticeEnables s) :=
  applyKind_lawful h fun r o => by split <;> exact h

theorem execClearNotices_lawful (h : s.FeedLawful) : NextLawful (execClearNotices s) :=
  applyKind_lawful h fun r o => by split <;> exact h

theorem execKeepalive_lawful (h : s.FeedLawful) : NextLawful (execKeepalive s) :=
  applyKind_lawful h fun r o => by split <;> exact h

/-! ### Desks -/

theorem execConfigureDesk_lawful (h : s.FeedLawful) : NextLawful (execConfigureDesk s) :=
  applyKind_lawful h fun r o => by
    split
    · refine onDesk_lawful h fun d => ?_
      unfold configureDeskOne
      split <;> exact h
    · exact h

theorem execOpenDesk_lawful (h : s.FeedLawful) : NextLawful (execOpenDesk s) :=
  applyKind_lawful h fun r o => by
    split
    · refine onDesk_lawful h fun d => ?_
      unfold openDeskOne
      split <;> exact h
    · exact h

theorem FeedLawful.closeSlot (h : s.FeedLawful) (d : Slot) : (s.closeSlot d).FeedLawful :=
  FeedLawful.modSlot (FeedLawful.atInputs h _ (retire_keeps d)) d _

theorem execCloseDesk_lawful (h : s.FeedLawful) : NextLawful (execCloseDesk s) :=
  applyKind_lawful h fun r o => by
    split
    · refine onDesk_lawful h fun d => ?_
      unfold closeDeskOne
      split
      · exact h
      split
      · exact h
      · exact FeedLawful.closeSlot h d
    · exact h

theorem execReadDesk_lawful (h : s.FeedLawful) : NextLawful (execReadDesk s) :=
  applyKind_lawful h fun r o => by
    split
    · exact onDesk_lawful h fun _ => h
    · exact h

theorem FeedLawful.absence (h : s.FeedLawful) (d : Slot) : (s.absence d).FeedLawful :=
  FeedLawful.modSlot (FeedLawful.atInputs h _ (leave_keeps d)) d _

theorem execPresenceTimerExpiry_lawful (h : s.FeedLawful) (d : Slot) :
    NextLawful (execPresenceTimerExpiry d s) := by
  refine nextLawful_next ?_
  split
  · exact FeedLawful.absence h d
  · exact h

theorem execGlideDonePulseEnd_lawful (h : s.FeedLawful) (d : Slot) :
    NextLawful (execGlideDonePulseEnd d s) := by
  refine nextLawful_next ?_
  split <;> exact h

/-! ### The system operations -/

theorem execSetTiming_lawful (h : s.FeedLawful) : NextLawful (execSetTiming s) :=
  applyKind_lawful h fun r o => by split <;> exact h

theorem execReadSystemStatus_lawful (h : s.FeedLawful) : NextLawful (execReadSystemStatus s) :=
  applyKind_lawful h fun r o => by split <;> exact h

theorem execClearSupply_lawful (h : s.FeedLawful) : NextLawful (execClearSupply s) :=
  applyKind_lawful h fun r o => by split <;> exact h

theorem execControlReset_lawful (h : s.FeedLawful) : NextLawful (execControlReset s) :=
  applyKind_lawful h fun r o => by split <;> exact h

theorem execUnknownOperationKind_lawful (h : s.FeedLawful) : NextLawful (execUnknownOperationKind s) := by
  refine nextLawful_next ?_
  split
  · split <;> exact h
  · exact h

/-! ### Bundles and pins -/

theorem execBundleTake_lawful (h : s.FeedLawful) : NextLawful (execBundleTake s) := by
  refine nextLawful_next ?_
  split
  · unfold State.takeBundle
    split <;> exact h
  · exact h

theorem FeedLawful.endBundle (h : s.FeedLawful) (r : Run) : (s.endBundle r).FeedLawful := by
  have hglides (t : State) (ht : t.FeedLawful) : (t.atInputs Inp.bundleGlide bundleEndAt).FeedLawful :=
    FeedLawful.atInputs ht _ (.of_mixer bundleEndAt_mixer)
  unfold State.endBundle
  dsimp only
  refine FeedLawful.setRun ?_ none
  split
  · exact FeedLawful.controlReset (hglides _ (FeedLawful.modSlot h _ _))
  · exact hglides _ (FeedLawful.modSlot h _ _)

theorem execBundleEnd_lawful (h : s.FeedLawful) : NextLawful (execBundleEnd s) := by
  refine nextLawful_next ?_
  split
  · split
    · exact FeedLawful.endBundle h _
    · exact h
  · exact h

theorem execPowerOnReset_lawful : NextLawful (execPowerOnReset s) := by
  refine nextLawful_next ((feedLawful_iff _).2 fun k => ?_)
  rw [State.inp, Table.get_map]
  exact feedLawfulAt_reset

theorem execCrstAssert_lawful (h : s.FeedLawful) : NextLawful (execCrstAssert s) := by
  refine nextLawful_next ?_
  split
  · exact h
  · exact FeedLawful.controlReset h

theorem execPsagAssert_lawful (h : s.FeedLawful) : NextLawful (execPsagAssert s) := by
  refine nextLawful_next ?_
  split <;> exact h

/-! ### The control port -/

theorem execWriteBundle_lawful (h : s.FeedLawful) (d : Slot) (bytes : List Byte) (stray : Fin 8) :
    NextLawful (execWriteBundle d bytes stray s) := by
  refine nextLawful_next ?_
  unfold State.judgeFrame
  dsimp only
  split <;> exact h

theorem execReadResponse_lawful (h : s.FeedLawful) (d : Slot) (n : Nat) :
    NextLawful (execReadResponse d n s) := by
  refine nextLawful_next ?_
  split <;> exact h

theorem execSetQueueThreshold_lawful (h : s.FeedLawful) (d : Slot) (bytes : List Byte) :
    NextLawful (execSetQueueThreshold d bytes s) := by
  refine nextLawful_next ?_
  split
  · exact h
  · split <;> exact h

theorem execIgnoredTransaction_lawful (h : s.FeedLawful) (cmd : Option Byte) (n : Nat) :
    NextLawful (execIgnoredTransaction cmd n s) := by
  refine nextLawful_next ?_
  split
  · exact h
  · split
    · dsimp only
      split <;> exact h
    · exact h

/-! ### Events of an input -/

theorem atInput_lawful (h : s.FeedLawful) (k : Input) {f : Env → Ev → Ev} (hf : KeepsFeedLaw f) :
    NextLawful (.next (s.atInput k f)) := nextLawful_next (FeedLawful.atInput h k hf)

theorem execFrontEndAck_lawful (h : s.FeedLawful) (k : Input) : NextLawful (execFrontEndAck k s) := by
  have hjudged : (s.ackJudged k).FeedLawful :=
    FeedLawful.congr h (State.ackJudged_inputs s k) (by rw [State.ackJudged_sys])
  cases hlate : s.ackLate k with
  | true =>
    rw [execFrontEndAck_late hlate]
    refine nextLawful_next (FeedLawful.setInp hjudged k ?_)
    rw [State.ackJudged_sys]
    exact h k
  | false =>
    rw [execFrontEndAck_taken hlate]
    exact atInput_lawful hjudged k ackAt_keeps

theorem settleTimerExpiry_keeps : KeepsFeedLaw fun _ e =>
    if e.inp.seq = .settling ∧ isDue e.inp.settleLeft then e.mod Inp.startUnmuting else e := by
  intro v e h
  dsimp only
  split
  · exact h.startUnmuting
  · exact h

theorem execWindowExpiry_lawful (h : s.FeedLawful) (k : Input) : NextLawful (execWindowExpiry k s) :=
  atInput_lawful h k (.of_mixer fun _ _ => ite_mixer rfl rfl)

theorem execAlignedChangeRelease_lawful (h : s.FeedLawful) (d : Slot) (k : Input) (n : Nat) :
    NextLawful (execAlignedChangeRelease d k n s) :=
  nextLawful_next (FeedLawful.setInp h k (FeedLawfulAt.modTap (h k) d fun _ ht => mixLawful_releaseNth ht n))

theorem execConverterSample_lawful (h : s.FeedLawful) (k : Input) (v : BitVec 24) :
    NextLawful (execConverterSample k v s) :=
  nextLawful_next (FeedLawful.setInp h k (FeedLawfulAt.sample (h k) v))

/-! ### Every step -/

/-- Every command keeps the law. -/
theorem exec_lawful (h : s.FeedLawful) (i : Instr) : NextLawful (exec i s) := by
  cases i with
  | writeBundle d bytes stray => exact execWriteBundle_lawful h d bytes stray
  | readResponse d n => exact execReadResponse_lawful h d n
  | readPortStatus n => exact nextLawful_next h
  | setQueueThreshold d bytes => exact execSetQueueThreshold_lawful h d bytes
  | ignoredTransaction cmd n => exact execIgnoredTransaction_lawful h cmd n
  | bundleTake => exact execBundleTake_lawful h
  | bundleEnd => exact execBundleEnd_lawful h
  | openTap => exact execOpenTap_lawful h
  | closeTap => exact execCloseTap_lawful h
  | setLevel => exact execSetLevel_lawful h
  | setTapMute => exact execSetTapMute_lawful h
  | readTap => exact execReadTap_lawful h
  | claim => exact execClaim_lawful h
  | release => exact execRelease_lawful h
  | setGain => exact execSetGain_lawful h
  | stopGlide => exact execStopGlide_lawful h
  | setPhantom => exact execSetPhantom_lawful h
  | setMode => exact execSetMode_lawful h
  | recheckFrontEnd => exact execRecheckFrontEnd_lawful h
  | readInput => exact execReadInput_lawful h
  | readMarks => exact execReadMarks_lawful h
  | clearMarks => exact execClearMarks_lawful h
  | setNoticeEnables => exact execSetNoticeEnables_lawful h
  | clearNotices => exact execClearNotices_lawful h
  | keepalive => exact execKeepalive_lawful h
  | configureInput => exact execConfigureInput_lawful h
  | configureDesk => exact execConfigureDesk_lawful h
  | openDesk => exact execOpenDesk_lawful h
  | closeDesk => exact execCloseDesk_lawful h
  | readDesk => exact execReadDesk_lawful h
  | setTiming => exact execSetTiming_lawful h
  | readSystemStatus => exact execReadSystemStatus_lawful h
  | clearSupply => exact execClearSupply_lawful h
  | controlReset => exact execControlReset_lawful h
  | powerOnReset => exact execPowerOnReset_lawful
  | crstAssert => exact execCrstAssert_lawful h
  | psagAssert => exact execPsagAssert_lawful h
  | psagDeassert => exact nextLawful_next h
  | frontEndAck k => exact execFrontEndAck_lawful h k
  | writeFail k => exact atInput_lawful h k failAt_keeps
  | muteRampEnd k => exact atInput_lawful h k muteRampEndAt_keeps
  | settleTimerExpiry k => exact atInput_lawful h k settleTimerExpiry_keeps
  | unmuteRampEnd k => exact atInput_lawful h k unmuteRampEndAt_keeps
  | stepTimerExpiry k => exact atInput_lawful h k (.of_mixer stepTimerAt_mixer)
  | clipIndication k => exact atInput_lawful h k (.of_mixer clipAt_mixer)
  | windowExpiry k => exact execWindowExpiry_lawful h k
  | presenceTimerExpiry d => exact execPresenceTimerExpiry_lawful h d
  | glideDonePulseEnd d => exact execGlideDonePulseEnd_lawful h d
  | alignedChangeRelease d k n => exact execAlignedChangeRelease_lawful h d k n
  | converterSample k v => exact execConverterSample_lawful h k v
  | unknownOperationKind => exact execUnknownOperationKind_lawful h

theorem step_lawful (h : s.FeedLawful) : NextLawful (step s) := by
  unfold step
  split
  · exact nextLawful_next (FeedLawful.tick h)
  · rename_i i rest _
    exact exec_lawful (s := { s with pending := rest }) h i

end Commands

/-- Settles O58: `FeedLawful` is inductive, and with both gates open a feed sample is an exact product. -/
theorem feedSamplesBounded : Obligations.FeedSamplesBounded := by
  refine ⟨fun s t h => step_lawful h t, feedLawful_powerOn false false 0 [], fun s h k => ?_, fun n hn => ?_⟩
  · obtain ⟨-, -, -, hfeed, -⟩ := h k
    exact hfeed
  · rw [coefficient_eighty]
    exact ⟨feedSample_open hn (by decide), feedSample_open hn (by decide)⟩

end Sys2Proof.FeedProofs
end

section
/-! PROOFS. The end of a bundle (R81, R82, R122) and the clips (R97 to R101). First the glide engine's visit to
one input, then what visits to several inputs do to the state, then BUNDLE END, and last the guard. -/

namespace Sys2Proof.GlideProofs

open Sys2Proof Sys2Proof.Machine Sys2Proof.FeedProofs

/-! ## A glide that ends (R85) -/

theorem endGlide_of_glide {v : Env} {e : Ev} {g : Glide} (h : e.inp.glide = some g) :
    e.endGlide v = ⟨e.inp.withoutGlide, e.out ++ glideDoneFor v e.inp g.source, e.code⟩ := by
  unfold Ev.endGlide
  rw [h]
  dsimp only
  cases hs : g.source <;> simp [glideDoneFor, Ev.raiseOwner, Ev.raiseObservers, Ev.emit, Ev.mod, Inp.dropGlide,
    Inp.withdrawStep, Inp.withoutGlide]

theorem endGlide_of_none {v : Env} {e : Ev} (h : e.inp.glide = none) : e.endGlide v = e := by
  unfold Ev.endGlide
  rw [h]

@[simp] theorem endGlide_glide (v : Env) (e : Ev) : (e.endGlide v).inp.glide = none := by
  cases h : e.inp.glide with
  | none => rwa [endGlide_of_none h]
  | some g => rw [endGlide_of_glide h]; rfl

/-- The end of a glide marks no slot by name: GLIDE_DONE is all that it raises. -/
theorem mark_mem_endGlide {v : Env} {e : Ev} {d : Slot} (h : .mark d ∈ (e.endGlide v).out) :
    .mark d ∈ e.out := by
  cases hg : e.inp.glide with
  | none => rwa [endGlide_of_none hg] at h
  | some g =>
    rw [endGlide_of_glide hg] at h
    cases hs : g.source <;> simpa [glideDoneFor, hs] using h

/-! ## The visit at the end of a bundle (R81, R82) -/

section Visit
variable {v : Env} {e : Ev} {g : Glide}

theorem bundleEndAt_of_waiting (hg : e.inp.glide = some g) (hw : g.state = .waiting) :
    bundleEndAt v e = e.startGlide v g := by
  unfold bundleEndAt
  rw [hg]
  dsimp only
  rw [hw]

theorem bundleEndAt_of_staged {q : Retarget} (hg : e.inp.glide = some g) (hs : g.state = .stepping)
    (hq : g.staged = some q) : bundleEndAt v e = e.applyRetarget v g q := by
  unfold bundleEndAt
  rw [hg]
  dsimp only
  rw [hs, hq]

theorem readyStep_of_idle (hg : e.inp.glide = some g) (hi : e.inp.seq = .idle) :
    e.readyStep v = Ev.pump v ⟨{ e.inp with
      glide := some { g with step := .ready }, waiting := e.inp.waiting ++ [.step] }, e.out, e.code⟩ := by
  unfold Ev.readyStep
  rw [hg]
  exact if_pos hi

theorem readyStep_of_busy (hi : e.inp.seq ≠ .idle) : e.readyStep v = e := by
  unfold Ev.readyStep
  split
  · exact if_neg hi
  · rfl

end Visit

/-- Settles O17: the visit opened at a WAITING glide and at a staged retarget, with the end of a glide and the
readying of a step put in their own words. -/
theorem bundleEndStartsGlides : Obligations.BundleEndStartsGlides := by
  intro v x g hg
  constructor
  · intro hw
    rw [bundleEndAt_of_waiting hg hw, Ev.startGlide, endGlide_of_glide hg]
    refine ite_congr rfl (fun _ => rfl) fun _ => ?_
    split
    next hi => exact readyStep_of_idle (g := { g with state := .stepping }) rfl hi
    next hi => exact readyStep_of_busy hi
  · intro q hs hq
    rw [bundleEndAt_of_staged hg hs hq, Ev.applyRetarget, endGlide_of_glide rfl]
    rfl

/-! ## What a visit reads and what it leaves -/

/-- An event reads of the part outside its input nothing but who the observers are. -/
def ReadsObserversOnly (f : Env → Ev → Ev) : Prop :=
  ∀ v w : Env, v.observers = w.observers → ∀ e, f v e = f w e

theorem endGlide_reads : ReadsObserversOnly Ev.endGlide := by
  intro v w h e
  unfold Ev.endGlide Ev.raiseObservers
  rw [h]

theorem issueOldest_reads (gs : List Group) : ReadsObserversOnly fun v e => e.issueOldest v gs := by
  intro v w h e
  induction gs generalizing e with
  | nil => rfl
  | cons a gs ih =>
    cases a with
    | step => simp only [Ev.issueOldest, endGlide_reads v w h, ih]
    | switching => simp only [Ev.issueOldest, ih]
    | recheck => rfl
    | startUp => rfl

theorem pump_reads : ReadsObserversOnly Ev.pump := by
  intro v w h e
  exact congrArg _ (issueOldest_reads _ v w h e)

theorem readyStep_reads : ReadsObserversOnly Ev.readyStep := by
  intro v w h e
  simp only [Ev.readyStep, Ev.join, pump_reads v w h]

theorem bundleEndAt_reads : ReadsObserversOnly bundleEndAt := by
  intro v w h e
  simp only [bundleEndAt, Ev.startGlide, Ev.applyRetarget, endGlide_reads v w h, readyStep_reads v w h]

/-- The glide at the input, if there is one, is STEPPING, and no slot is marked by name. -/
def GlideStarted (e : Ev) : Prop := (∀ g ∈ e.inp.glide, g.state = .stepping) ∧ ∀ d, .mark d ∉ e.out

section Started
variable {v : Env} {e : Ev}

theorem glideStarted_endGlide (h : ∀ d, .mark d ∉ e.out) : GlideStarted (e.endGlide v) :=
  ⟨by simp, fun d hd => h d (mark_mem_endGlide hd)⟩

theorem GlideStarted.issueOldest (h : GlideStarted e) (gs : List Group) :
    GlideStarted (e.issueOldest v gs) := by
  induction gs generalizing e with
  | nil => exact h
  | cons a gs ih =>
    cases a with
    | step =>
      unfold Ev.issueOldest
      split
      next g hg =>
        split
        · exact ih (glideStarted_endGlide h.2)
        · refine ⟨fun g' hg' => ?_, h.2⟩
          obtain rfl := Option.some.inj hg'
          exact h.1 g hg
      · exact ih h
    | switching =>
      unfold Ev.issueOldest
      split
      · exact h
      · exact ih h
    | recheck => exact h
    | startUp => exact h

theorem GlideStarted.pump (h : GlideStarted e) : GlideStarted (e.pump v) := by
  unfold Ev.pump
  split
  · exact h
  · exact h.issueOldest _

theorem GlideStarted.readyStep (h : GlideStarted e) : GlideStarted (e.readyStep v) := by
  unfold Ev.readyStep
  split
  next g hg =>
    split
    · refine GlideStarted.pump ⟨fun g' hg' => ?_, h.2⟩
      obtain rfl := Option.some.inj hg'
      exact h.1 g hg
    · exact h
  · exact h

/-- After the visit no glide is WAITING. -/
theorem glideStarted_bundleEndAt (h : ∀ d, .mark d ∉ e.out) : GlideStarted (bundleEndAt v e) := by
  unfold bundleEndAt
  split
  next hg => exact ⟨by simp [hg], h⟩
  next g hg =>
    split
    · unfold Ev.startGlide
      split
      · exact glideStarted_endGlide h
      · exact GlideStarted.readyStep ⟨fun g' hg' => by obtain rfl := Option.some.inj hg'; rfl, h⟩
    next hs _ =>
      unfold Ev.applyRetarget
      dsimp only
      split
      · exact glideStarted_endGlide h
      · exact ⟨fun g' hg' => by obtain rfl := Option.some.inj hg'; exact hs, h⟩
    next hs _ => exact ⟨fun g' hg' => by obtain rfl := Option.some.inj (hg.symm.trans hg'); exact hs, h⟩

/-- After a staged retarget has taken effect none is staged. -/
theorem staged_applyRetarget {g h : Glide} {q : Retarget} (hh : h ∈ (e.applyRetarget v g q).inp.glide) :
    h.staged = none := by
  unfold Ev.applyRetarget at hh
  dsimp only at hh
  split at hh
  · simp at hh
  · obtain rfl := Option.some.inj hh
    rfl

end Started

theorem bundleGlide_iff (x : Inp) : x.bundleGlide = true ↔
    ∃ g, x.glide = some g ∧ (g.state = .waiting ∨ (g.state = .stepping ∧ ∃ q, g.staged = some q)) := by
  unfold Inp.bundleGlide
  cases x.glide with
  | none => simp
  | some g => cases hs : g.state <;> simp [hs, Option.isSome_iff_exists]

/-- A glide that shows in the record as `g` does has its state and its staged retarget (R134). -/
theorem glide_of_view {x y : Inp} {g : Glide} (hv : y.view = x.view) (hg : x.glide = some g) :
    ∃ h, y.glide = some h ∧ h.state = g.state ∧ h.staged = g.staged := by
  have hglide := congrArg RecordView.glide hv
  simp only [Inp.view, hg, Option.map_some, Option.map_eq_some_iff, Prod.mk.injEq] at hglide
  obtain ⟨h, hh, -, -, -, hstate, hstaged⟩ := hglide
  exact ⟨h, hh, hstate, hstaged⟩

/-- The visit changes the record of each input that it visits: a WAITING glide waits no more, and nothing staged
stays staged (R134). -/
theorem bundleEndAt_view {v : Env} {x : Inp} (h : x.bundleGlide = true) :
    (bundleEndAt v ⟨x, [], .done⟩).inp.view ≠ x.view := by
  intro hv
  obtain ⟨g, hg, hw | ⟨hs, q, hq⟩⟩ := (bundleGlide_iff x).1 h
  · obtain ⟨g', hg', hstate, -⟩ := glide_of_view hv hg
    have hstarted := (glideStarted_bundleEndAt (v := v) (e := ⟨x, [], .done⟩) (by simp)).1 g' hg'
    rw [hstate, hw] at hstarted
    cases hstarted
  · obtain ⟨g', hg', -, hstaged⟩ := glide_of_view hv hg
    rw [bundleEndAt_of_staged hg hs hq] at hg'
    rw [staged_applyRetarget hg', hq] at hstaged
    cases hstaged

theorem holds_of_mixer {x y : Inp} (h : mixer y = mixer x) (d : Slot) : y.holds d = x.holds d := by
  have htaps : y.taps = x.taps := congrArg (fun m => m.2.2.2) h
  simp only [Inp.holds, Inp.tap, htaps]

/-- A visited input is marked for its tap holders and the observers (R134). -/
theorem changeMarks_bundleEndAt {v : Env} {x : Inp} (h : x.bundleGlide = true) (d : Slot) (r : SlotRec) :
    changeMarks x (bundleEndAt v ⟨x, [], .done⟩).inp d r = true ↔
      r.live = true ∧ (x.holds d = true ∨ r.perms.observer = true) := by
  have hview : (x.view != (bundleEndAt v ⟨x, [], .done⟩).inp.view) = true :=
    bne_iff_ne.2 (bundleEndAt_view h).symm
  rw [changeMarks, hview, holds_of_mixer (bundleEndAt_mixer v ⟨x, [], .done⟩) d, SlotRec.observes]
  cases r.live <;> cases x.holds d <;> simp

/-! ## Events at several inputs -/

/-- The event `f` raises `n` for slot `d`, which is not CLOSED, at one of the inputs that meet `V`. -/
def RaisedAt (s : State) (f : Env → Ev → Ev) (V : Input → Prop) (n : Sticky) (d : Slot) : Prop :=
  (s.slot d).live = true ∧ ∃ k, V k ∧ .raise n d ∈ (s.evAt k f).out

/-- The event `f` marks input `k` for slot `d`, by name or by the change of a record. -/
def MarkedAt (s : State) (f : Env → Ev → Ev) (k : Input) (d : Slot) : Prop :=
  (s.slot d).live = true ∧
    (.mark d ∈ (s.evAt k f).out ∨ changeMarks (s.inp k) (s.evAt k f).inp d (s.slot d) = true)

/-- What the event `f` at the inputs that meet `V`, each as it stands in `s`, does to the inputs and the
slots. -/
structure Visited (s : State) (f : Env → Ev → Ev) (V : Input → Prop) (t : State) : Prop where
  visited : ∀ k, V k → t.inp k = (s.evAt k f).inp
  unvisited : ∀ k, ¬ V k → t.inp k = s.inp k
  slots : slotsKeptButNotices s t
  marks : ∀ d k, (t.slot d).marks.get k = true ↔
    (s.slot d).marks.get k = true ∨ (V k ∧ MarkedAt s f k d)
  flags : ∀ d n, (t.slot d).flags.has n = true ↔ (s.slot d).flags.has n = true ∨ RaisedAt s f V n d
  opened : ∀ d, RaisedAt s f V .glideDone d → (t.slot d).pulse = some 1
  unopened : ∀ d, ¬ RaisedAt s f V .glideDone d → (t.slot d).pulse = (s.slot d).pulse

section Several
variable {s t : State} {f : Env → Ev → Ev} {V : Input → Prop}

theorem observers_of_slotsKept (h : slotsKeptButNotices s t) : t.env.observers = s.env.observers := by
  unfold Env.observers
  congr 1
  funext d
  exact SlotRec.sameButNotices_observes (h d)

/-- An event finds its input as it stood where that has not changed, and the same observers. -/
theorem evAt_of_slotsKept (hf : ReadsObserversOnly f) (h : slotsKeptButNotices s t) {k : Input}
    (hk : t.inp k = s.inp k) : t.evAt k f = s.evAt k f := by
  unfold State.evAt
  rw [hk]
  exact hf _ _ (observers_of_slotsKept h) _

theorem raisedAt_none {n : Sticky} {d : Slot} : ¬ RaisedAt s f (fun _ => False) n d := by
  simp [RaisedAt]

theorem raisedAt_or {k : Input} {n : Sticky} {d : Slot} :
    RaisedAt s f (fun j => V j ∨ j = k) n d ↔
      RaisedAt s f V n d ∨ ((s.slot d).live = true ∧ .raise n d ∈ (s.evAt k f).out) := by
  simp only [RaisedAt, or_and_right, exists_or, exists_eq_left, and_or_left]

theorem visited_none (s : State) (f : Env → Ev → Ev) : Visited s f (fun _ => False) s where
  visited _ h := h.elim
  unvisited _ _ := rfl
  slots _ := SlotRec.sameButNotices_refl _
  marks := by simp
  flags := by simp [raisedAt_none]
  opened _ h := (raisedAt_none h).elim
  unopened _ _ := rfl

/-- One more input visited. -/
theorem Visited.atInput (h : Visited s f V t) (hf : ReadsObserversOnly f) {k : Input} (hk : ¬ V k) :
    Visited s f (fun j => V j ∨ j = k) (t.atInput k f) := by
  have hin := h.unvisited k hk
  rw [State.atInput, evAt_of_slotsKept hf h.slots hin]
  obtain ⟨hinp, -, -, -, -, -, hslot⟩ := t.commit_spec k (s.evAt k f)
  have hlive d : (t.slot d).live = (s.slot d).live := SlotRec.sameButNotices_live (h.slots d)
  have hpulse d : ((t.commit k (s.evAt k f)).slot d).pulse = _ := (hslot d).2.2.2
  simp only [hlive] at hpulse
  constructor
  case visited =>
    rintro j (hj | rfl)
    · have hne : j ≠ k := fun hjk => hk (hjk ▸ hj)
      rw [hinp, if_neg hne, h.visited j hj]
    · rw [hinp, if_pos rfl]
  case unvisited =>
    intro j hj
    rw [hinp, if_neg fun hjk => hj (.inr hjk), h.unvisited j fun hv => hj (.inl hv)]
  case slots => exact fun d => SlotRec.sameButNotices_trans (h.slots d) (hslot d).1
  case marks =>
    intro d j
    rw [(hslot d).2.1, hlive, hin, changeMarks_sameButNotices (h.slots d), Bool.or_eq_true, h.marks]
    simp only [Bool.and_eq_true, Bool.or_eq_true, decide_eq_true_eq, List.contains_iff_mem, MarkedAt]
    by_cases hj : j = k
    · subst hj
      simp [hk]
    · simp [hj]
  case flags =>
    intro d n
    rw [(hslot d).2.2.1, hlive, Bool.or_eq_true, h.flags, raisedAt_or]
    simp [or_assoc]
  case opened =>
    intro d hd
    rw [hpulse]
    split
    · rfl
    · exact h.opened d ((raisedAt_or.1 hd).resolve_right ‹_›)
  case unopened =>
    intro d hd
    rw [raisedAt_or, not_or] at hd
    rw [hpulse, if_neg hd.2, h.unopened d hd.1]

theorem Visited.congr (h : Visited s f V t) {W : Input → Prop} (hVW : ∀ k, V k ↔ W k) : Visited s f W t := by
  obtain rfl : V = W := funext fun k => propext (hVW k)
  exact h

/-- The inputs of a list visited one after the other, each of them new. -/
theorem Visited.foldl (h : Visited s f V t) (hf : ReadsObserversOnly f) (p : Inp → Bool) {ks : List Input}
    (hks : ks.Nodup) (hnew : ∀ k ∈ ks, ¬ V k) : Visited s f (fun k => V k ∨ k ∈ ks ∧ p (s.inp k) = true)
      (ks.foldl (fun t k => if p (t.inp k) then t.atInput k f else t) t) := by
  induction ks generalizing t V with
  | nil => exact h.congr fun k => by simp only [List.not_mem_nil, false_and, or_false]
  | cons k ks ih =>
    obtain ⟨hk, hks⟩ := List.nodup_cons.1 hks
    obtain ⟨hkV, hnew⟩ := List.forall_mem_cons.1 hnew
    rw [List.foldl_cons, h.unvisited k hkV]
    by_cases hp : p (s.inp k) = true
    · rw [if_pos hp]
      have hnew' : ∀ j ∈ ks, ¬ (V j ∨ j = k) := fun j hj hjk =>
        hjk.elim (hnew j hj) fun hjk => hk (hjk ▸ hj)
      refine (ih (h.atInput hf hkV) hks hnew').congr fun j => ?_
      have hjk : j = k ↔ j = k ∧ p (s.inp j) = true := ⟨fun hjk => ⟨hjk, hjk ▸ hp⟩, And.left⟩
      rw [List.mem_cons, or_and_right, ← hjk, or_assoc]
    · rw [if_neg hp]
      refine (ih h hks hnew).congr fun j => or_congr_right ?_
      have hjk : ¬ (j = k ∧ p (s.inp j) = true) := fun hj => hp (hj.1 ▸ hj.2)
      rw [List.mem_cons, or_and_right, or_iff_right hjk]

theorem finRange_nodup : (List.finRange 64).Nodup := by decide

/-- Each input that meets `p` is visited as it stood before the first visit. -/
theorem visited_atInputs (hf : ReadsObserversOnly f) (s : State) (p : Inp → Bool) :
    Visited s f (fun k => p (s.inp k) = true) (s.atInputs p f) :=
  ((visited_none s f).foldl hf p finRange_nodup fun _ _ h => h).congr fun k => by
    simp only [List.mem_finRange, true_and, false_or]

end Several

/-! ## BUNDLE END (R122) -/

theorem live_iff (r : SlotRec) : r.live = true ↔ r.state ≠ .closed := bne_iff_ne

theorem execBundleEnd_early {s : State} (h : ∀ r, s.executor.run = some r → r.pos < r.ops.length) :
    execBundleEnd s = .next s := by
  unfold execBundleEnd
  split
  next r hr => rw [if_neg (by have := h r hr; omega)]
  · rfl

theorem execBundleEnd_ends {s : State} {r : Run} (hr : s.executor.run = some r)
    (hp : r.ops.length ≤ r.pos) : execBundleEnd s = .next (s.endBundle r) := by
  unfold execBundleEnd
  rw [hr]
  exact congrArg _ (if_pos hp)

/-- The response of the bundle in execution joined to the sender's queue (R122). -/
def respond (s : State) (r : Run) : State :=
  s.modSlot r.slot fun x => { x with responses := x.responses ++ [⟨r.tag, r.results⟩] }

theorem respond_slot (s : State) (r : Run) (d : Slot) :
    (respond s r).slot d = if d = r.slot then
      { s.slot d with responses := (s.slot d).responses ++ [⟨r.tag, r.results⟩] } else s.slot d :=
  State.modSlot_slot ..

@[simp] theorem respond_inp (s : State) (r : Run) (k : Input) : (respond s r).inp k = s.inp k := rfl

section Respond
variable (s : State) (r : Run) (d : Slot)

@[simp] theorem respond_marks : ((respond s r).slot d).marks = (s.slot d).marks := by
  rw [respond_slot]; split <;> rfl
@[simp] theorem respond_flags : ((respond s r).slot d).flags = (s.slot d).flags := by
  rw [respond_slot]; split <;> rfl
@[simp] theorem respond_pulse : ((respond s r).slot d).pulse = (s.slot d).pulse := by
  rw [respond_slot]; split <;> rfl
@[simp] theorem respond_state : ((respond s r).slot d).state = (s.slot d).state := by
  rw [respond_slot]; split <;> rfl
@[simp] theorem respond_perms : ((respond s r).slot d).perms = (s.slot d).perms := by
  rw [respond_slot]; split <;> rfl

end Respond

/-- The response changes nothing that a visit reads. -/
theorem respond_evAt (s : State) (r : Run) (k : Input) :
    (respond s r).evAt k bundleEndAt = s.evAt k bundleEndAt := by
  refine bundleEndAt_reads _ _ ?_ _
  unfold Env.observers
  congr 1
  funext d
  change ((respond s r).slot d).observes = (s.slot d).observes
  simp only [SlotRec.observes, SlotRec.live, respond_state, respond_perms]

/-- A visited input is marked for its tap holders and the observers, but for no CLOSED slot (R134). -/
theorem markedAt_bundleEnd {s : State} {k : Input} (h : (s.inp k).bundleGlide = true) (d : Slot) :
    MarkedAt s bundleEndAt k d ↔
      (s.slot d).state ≠ .closed ∧ ((s.inp k).holds d = true ∨ (s.slot d).perms.observer = true) := by
  have hout : .mark d ∉ (s.evAt k bundleEndAt).out := (glideStarted_bundleEndAt (by simp)).2 d
  rw [MarkedAt, or_iff_right hout, State.evAt, changeMarks_bundleEndAt h, ← live_iff]
  exact ⟨And.right, fun hm => ⟨hm.1, hm⟩⟩

/-- Settles O16: the executor's end of a bundle is the response, then a visit to each input that holds a WAITING
glide or a staged retarget; no visit bears on another, since none changes who observes. -/
theorem bundleEndInOrder : Obligations.BundleEndInOrder := by
  refine ⟨fun s h => execBundleEnd_early h, fun s r hr hp => ?_⟩
  have hrest := ((respond s r).atInputs_rest Inp.bundleGlide bundleEndAt).2
  have h := visited_atInputs bundleEndAt_reads (respond s r) Inp.bundleGlide
  have hraised n d : RaisedAt (respond s r) bundleEndAt (fun k => (s.inp k).bundleGlide = true) n d ↔
      (s.slot d).state ≠ .closed ∧ ∃ k, (s.inp k).bundleGlide = true ∧
        .raise n d ∈ (s.evAt k bundleEndAt).out := by
    simp only [RaisedAt, live_iff, respond_state, respond_evAt]
  refine ⟨(respond s r).atInputs Inp.bundleGlide bundleEndAt, ?_, hrest, fun k => ?_,
    fun d => ⟨?_, ?_, ?_, ?_⟩⟩
  · refine (execBundleEnd_ends hr hp).trans ?_
    unfold State.endBundle
    simp only [State.atInputs_executor, State.modSlot_executor]
    rfl
  · split
    next hv => rw [h.visited k hv, respond_evAt]
    next hv => exact h.unvisited k hv
  · rw [← respond_slot]
    exact h.slots d
  · intro k
    rw [h.marks, respond_marks]
    refine or_congr_right ?_
    rw [← and_left_comm]
    refine and_congr_right fun hv => ?_
    simpa using markedAt_bundleEnd (s := respond s r) hv d
  · intro n
    rw [h.flags, respond_flags, ← hraised]
    rfl
  · split
    next hd => exact h.opened d ((hraised .glideDone d).2 hd)
    next hd => rw [h.unopened d fun hr => hd ((hraised .glideDone d).1 hr), respond_pulse]

/-! ## Clips (R97 to R101) -/

theorem exec_clipIndication (s : State) (k : Input) :
    exec (.clipIndication k) s = .next (s.commit k (s.evAt k clipAt)) := rfl

theorem countsClips_iff (x : Inp) :
    x.countsClips = true ↔ x.guard.policy ≠ .off ∧ x.seq = .idle ∧ x.mode ≠ .off := by
  simp [Inp.countsClips, and_assoc]

/-- The clip counted, with the window started (R97). -/
def counted (x : Inp) : Inp :=
  { x with guard := { x.guard with
      count := min 15 (x.guard.count + 1), timer := some (x.guard.timer.getD (250 * x.guard.window)) } }

/-- The outcome recorded at the threshold (R99). -/
def noted (o : GuardOutcome) (x : Inp) : Inp :=
  { x with guard := { x.guard with count := 0, timer := none, last := o } }

/-- OVERLOAD and the mark for every tap holder and observer (R99). -/
def overloadFor (v : Env) (x : Inp) : List Signal :=
  let told := (List.finRange 6).filter fun d => x.holds d || (v.slots.get d).observes
  told.map (.raise .overload) ++ told.map .mark

section Clip
variable {v : Env} {x : Inp}

theorem clipAt_ignored (h : ¬ x.countsClips = true) : clipAt v ⟨x, [], .done⟩ = ⟨x, [], .done⟩ := if_neg h

theorem clipAt_below (h : x.countsClips = true) (hc : min 15 (x.guard.count + 1) < x.guard.threshold) :
    clipAt v ⟨x, [], .done⟩ = ⟨counted x, [], .done⟩ :=
  (if_pos h).trans (if_neg (Nat.not_le.2 hc))

theorem clipAt_reached (h : x.countsClips = true) (hc : x.guard.threshold ≤ min 15 (x.guard.count + 1)) :
    clipAt v ⟨x, [], .done⟩ = Ev.threshold v ⟨counted x, [], .done⟩ :=
  (if_pos h).trans (if_pos hc)

/-- OVERLOAD goes to those who held taps before the event: nothing of it changes a tap. -/
theorem tellOverload_of_mixer {e : Ev} (h : mixer e.inp = mixer x) :
    e.tellOverload v = ⟨e.inp, e.out ++ overloadFor v x, e.code⟩ := by
  simp only [Ev.tellOverload, Ev.emit, overloadFor, holds_of_mixer h]

theorem threshold_eq : Ev.threshold v ⟨counted x, [], .done⟩ =
    (if x.outcome = .backedOff then Ev.backOff v ⟨noted x.outcome x, [], .done⟩
      else ⟨noted x.outcome x, [], .done⟩ : Ev).tellOverload v := rfl

theorem threshold_plain (h : x.outcome ≠ .backedOff) :
    Ev.threshold v ⟨counted x, [], .done⟩ = ⟨noted x.outcome x, overloadFor v x, .done⟩ := by
  rw [threshold_eq, if_neg h]
  exact tellOverload_of_mixer rfl

/-- The record at a back-off: the total grown by the planned amount, and the guard glide in place (R101,
R92). -/
def backedOff (step : StepState) (x : Inp) : Inp :=
  let y := noted .backedOff x
  { y with
    guard := { y.guard with total := min 60 (x.guard.total + x.plannedAmount) }
    glide := some ⟨x.guardTarget, 2, .guard, .stepping, step, none, none⟩ }

/-- The step in flight, which a guard glide inherits (R92). -/
def stepInFlight (x : Inp) : StepState :=
  match x.glide with
  | some g => g.step
  | none => .absent

theorem backOff_eq : Ev.backOff v ⟨noted .backedOff x, [], .done⟩ =
    if stepInFlight x = .absent then Ev.readyStep v ⟨backedOff (stepInFlight x) x, [], .done⟩
    else ⟨backedOff (stepInFlight x) x, [], .done⟩ := rfl

theorem threshold_backOff (h : x.outcome = .backedOff) (hi : x.seq = .idle) :
    Ev.threshold v ⟨counted x, [], .done⟩ =
      if stepInFlight x = .absent then
        let e := Ev.pump v ⟨(backedOff (stepInFlight x) x).stepReady
          ⟨x.guardTarget, 2, .guard, .stepping, .absent, none, none⟩, [], .done⟩
        ⟨e.inp, e.out ++ overloadFor v x, e.code⟩
      else ⟨backedOff (stepInFlight x) x, overloadFor v x, .done⟩ := by
  rw [threshold_eq, if_pos h, h, backOff_eq]
  split
  · rw [readyStep_of_idle rfl hi]
    exact tellOverload_of_mixer (pump_mixer ..)
  · exact tellOverload_of_mixer rfl

theorem outcome_of_report (h : x.guard.policy = .report) : x.outcome = .reported := by simp [Inp.outcome, h]

theorem outcome_of_backoff (h : x.guard.policy = .backoff) :
    x.outcome = if x.fault then .inFault else if x.gain = 0 then .atFloor else .backedOff := by
  simp [Inp.outcome, h]

theorem present_eq (g : Glide) : g.present = (g.staged.map Retarget.target).getD g.target := by
  unfold Glide.present
  cases g.staged <;> rfl

end Clip

/-- At the threshold with no back-off, the outcome is recorded and OVERLOAD given. -/
theorem exec_clip_plain {s : State} {k : Input} {o : GuardOutcome} (hcounts : (s.inp k).countsClips = true)
    (hc : (s.inp k).guard.threshold ≤ min 15 ((s.inp k).guard.count + 1)) (ho : (s.inp k).outcome = o)
    (hb : o ≠ .backedOff) :
    exec (.clipIndication k) s = .next (s.after k (noted o (s.inp k)) (overloadFor s.env (s.inp k))) := by
  subst ho
  rw [exec_clipIndication, State.evAt, clipAt_reached hcounts hc, threshold_plain hb]
  rfl

/-- Settles O42: the clauses are the branches of a clip, of the threshold and of the outcome. -/
theorem clipCountedToThreshold : Obligations.ClipCountedToThreshold := by
  intro s k x g counts count told tell noted'
  have hcounts : x.countsClips = true ↔ counts := countsClips_iff x
  refine ⟨fun h => ?_, fun h hc => ?_, fun h hc hp => ?_, fun h hc hp hf => ?_, fun h hc hp hf h0 => ?_,
    fun h hc hp hf h0 => ?_⟩
  · rw [exec_clipIndication, State.evAt, clipAt_ignored (mt hcounts.1 h)]
    exact congrArg _ (State.after_same s k)
  · rw [exec_clipIndication, State.evAt, clipAt_below (hcounts.2 h) hc]
    rfl
  · exact exec_clip_plain (hcounts.2 h) hc (outcome_of_report hp) (by decide)
  · exact exec_clip_plain (hcounts.2 h) hc ((outcome_of_backoff hp).trans (if_pos hf)) (by decide)
  · refine exec_clip_plain (hcounts.2 h) hc ((outcome_of_backoff hp).trans ?_) (by decide)
    rw [hf, if_pos h0]
    rfl
  · have hoff : x.outcome = .backedOff := by
      rw [outcome_of_backoff hp, hf, if_neg h0]
      rfl
    intro target reference step y y'
    have hplan : x.plannedAmount = reference - target := by
      simp only [Inp.plannedAmount, present_eq]
      rfl
    have hy : backedOff (stepInFlight x) x = y' := by
      unfold backedOff
      rw [hplan]
      rfl
    rw [exec_clipIndication, State.evAt, clipAt_reached (hcounts.2 h) hc, threshold_backOff hoff h.2.1, hy]
    have hstep : stepInFlight x = step := rfl
    rw [hstep]
    split
    · rfl
    · rfl

end Sys2Proof.GlideProofs
end

section
/-! PROOFS. The laws of the port's queues, of bundles and results, of the guard records and of the system
settings (R95 to R98, R119 to R129, R144 to R146), which every step keeps. First what leaves a guard lawful,
then what adds nothing to a queue, then what the executor and the port do add, and last the commands. -/

namespace Sys2Proof.QueueProofs

open Sys2Proof Sys2Proof.Machine Sys2Proof.TapProofs Sys2Proof.FeedProofs Sys2Proof.GlideProofs

/-! ## The law of a guard record (R95) -/

theorem clampNat_mem {lo hi : Nat} (h : lo ≤ hi) (x : Nat) : lo ≤ clampNat lo hi x ∧ clampNat lo hi x ≤ hi := by
  unfold clampNat
  omega

/-- A setting in its range is in it after an operation that carries it or not (R96, R129). -/
theorem carried_mem {lo hi old : Nat} (hlo : lo ≤ old) (hhi : old ≤ hi) (b : Option Byte) :
    lo ≤ carried lo hi old b ∧ carried lo hi old b ≤ hi := by
  cases b with
  | none => exact ⟨hlo, hhi⟩
  | some x => exact clampNat_mem (Nat.le_trans hlo hhi) _

section Guards
variable {g : Guard}

theorem guardLawful_reset : Guard.reset.Lawful := by
  unfold Guard.Lawful
  decide

/-- The counting starts again (R98, R99, R104). -/
theorem guardLawful_cleared (h : g.Lawful) : Guard.Lawful { g with count := 0, timer := none } := by
  obtain ⟨hthr, hthr', hwin, hwin', hback, hback', -, -, htotal⟩ := h
  exact ⟨hthr, hthr', hwin, hwin', hback, hback', hthr, iff_of_true rfl rfl, htotal⟩

theorem guardLawful_withTotal (h : g.Lawful) {n : Nat} (hn : n ≤ 60) : Guard.Lawful { g with total := n } := by
  obtain ⟨hthr, hthr', hwin, hwin', hback, hback', hcount, htimer, -⟩ := h
  exact ⟨hthr, hthr', hwin, hwin', hback, hback', hcount, htimer, hn⟩

/-- A clip counted below the threshold: the window runs, and the count is not 0 (R97). -/
theorem guardLawful_counted (h : g.Lawful) (n : Nat) (hc : min 15 (g.count + 1) < g.threshold) :
    Guard.Lawful { g with timer := some n, count := min 15 (g.count + 1) } := by
  obtain ⟨hthr, hthr', hwin, hwin', hback, hback', -, -, htotal⟩ := h
  exact ⟨hthr, hthr', hwin, hwin', hback, hback', hc, by simp, htotal⟩

theorem guardLawful_tick (h : g.Lawful) : Guard.Lawful { g with timer := runDown g.timer } := by
  obtain ⟨hthr, hthr', hwin, hwin', hback, hback', hcount, htimer, htotal⟩ := h
  exact ⟨hthr, hthr', hwin, hwin', hback, hback', hcount, Option.map_eq_none_iff.trans htimer, htotal⟩

/-- Threshold, window and policy keep the counting only where none of them is new (R96). -/
theorem guardLawful_configure (h : g.Lawful) (c : InputConfig) : (g.configure c).Lawful := by
  obtain ⟨hthr, hthr', hwin, hwin', hback, hback', hcount, htimer, htotal⟩ := h
  obtain ⟨bthr, bthr'⟩ := carried_mem hthr hthr' c.threshold
  obtain ⟨bwin, bwin'⟩ := carried_mem hwin hwin' c.window
  obtain ⟨bback, bback'⟩ := carried_mem hback hback' c.backStep
  unfold Guard.configure
  dsimp only
  split
  · exact ⟨hthr, hthr', hwin, hwin', bback, bback', hcount, htimer, htotal⟩
  · exact ⟨bthr, bthr', bwin, bwin', bback, bback', bthr, iff_of_true rfl rfl, htotal⟩

end Guards

/-! ## What leaves the guard record as it is -/

section SameGuard
variable (v : Env) (e : Ev) (x : Inp)

theorem ite_guard {p : Prop} [Decidable p] {a b : Ev} {g : Guard} (ha : a.inp.guard = g)
    (hb : b.inp.guard = g) : (if p then a else b).inp.guard = g := by
  split
  · exact ha
  · exact hb

/-! ### Glides and the command path -/

theorem endGlide_guard : (e.endGlide v).inp.guard = e.inp.guard := by
  unfold Ev.endGlide
  split
  · rfl
  · split <;> rfl

theorem issueRecheckPhantom_guard : (e.issueRecheckPhantom v).inp.guard = e.inp.guard := by
  unfold Ev.issueRecheckPhantom
  split
  · split <;> rfl
  · rfl

theorem issueOldest_guard (gs : List Group) : (e.issueOldest v gs).inp.guard = e.inp.guard := by
  induction gs generalizing e with
  | nil => rfl
  | cons g gs ih =>
    cases g with
    | step =>
      unfold Ev.issueOldest
      split
      · exact ite_guard ((ih _).trans (endGlide_guard v e)) rfl
      · exact ih e
    | switching =>
      unfold Ev.issueOldest
      split
      · rfl
      · exact ih e
    | recheck => rfl
    | startUp => rfl

theorem pump_guard : (e.pump v).inp.guard = e.inp.guard := by
  unfold Ev.pump
  exact ite_guard rfl (issueOldest_guard ..)

theorem join_guard (g : Group) : (e.join v g).inp.guard = e.inp.guard := pump_guard ..

theorem readyStep_guard : (e.readyStep v).inp.guard = e.inp.guard := by
  unfold Ev.readyStep
  split
  · exact ite_guard (join_guard ..) rfl
  · rfl

theorem takeTarget_guard (target rate : Nat) : (x.takeTarget target rate).guard = x.guard := by
  unfold Inp.takeTarget
  split
  · split <;> rfl
  · split
    · split <;> rfl
    · rfl

theorem stopGlideAt_guard (d : Slot) : (stopGlideAt d v e).inp.guard = e.inp.guard := by
  refine ite_guard rfl ?_
  unfold Ev.stopGlide
  split
  · rfl
  · exact ite_guard rfl (endGlide_guard ..)

theorem stepAcked_guard : (e.stepAcked v).inp.guard = e.inp.guard := by
  unfold Ev.stepAcked
  split
  · rfl
  · exact ite_guard (ite_guard (endGlide_guard ..) (ite_guard rfl (ite_guard (readyStep_guard ..) rfl))) rfl

theorem clampGlide_guard : (e.clampGlide v).inp.guard = e.inp.guard := by
  unfold Ev.clampGlide
  split
  · rfl
  · exact ite_guard (endGlide_guard ..) rfl

theorem resumeGlide_guard : (e.resumeGlide v).inp.guard = e.inp.guard := by
  unfold Ev.resumeGlide
  split
  · rfl
  · exact ite_guard (readyStep_guard ..) rfl

theorem bundleEndAt_guard : (bundleEndAt v e).inp.guard = e.inp.guard := by
  unfold bundleEndAt
  split
  · rfl
  · split
    · exact ite_guard (endGlide_guard ..) (readyStep_guard ..)
    · exact ite_guard (endGlide_guard ..) rfl
    · rfl

theorem stepTimerAt_guard : (stepTimerAt v e).inp.guard = e.inp.guard := by
  unfold stepTimerAt
  split
  · exact ite_guard (readyStep_guard ..) rfl
  · rfl

theorem recheckAt_guard (d : Slot) : (recheckAt d v e).inp.guard = e.inp.guard :=
  ite_guard rfl (ite_guard rfl (join_guard ..))

theorem moveOn_guard (i : Issuer) : (e.moveOn v i).inp.guard = e.inp.guard := by
  unfold Ev.moveOn
  split
  · exact issueRecheckPhantom_guard ..
  · rfl
  · rfl
  · exact pump_guard ..

theorem guardGlide_guard (target : Nat) : (e.guardGlide v target).inp.guard = e.inp.guard :=
  ite_guard (readyStep_guard ..) rfl

/-! ### The sequencer and acknowledgements -/

theorem requestAt_guard (d : Slot) (value : FrontValue) : (requestAt d value v e).inp.guard = e.inp.guard := by
  refine ite_guard rfl (ite_guard rfl (ite_guard (ite_guard rfl rfl) ?_))
  split <;> rfl

theorem failAt_guard : (failAt v e).inp.guard = e.inp.guard := by
  unfold failAt
  split
  · rfl
  · refine ite_guard ((pump_guard ..).trans ?_) rfl
    exact endGlide_guard ..

theorem muteRampEndAt_guard : (muteRampEndAt v e).inp.guard = e.inp.guard := by
  unfold muteRampEndAt
  split
  · exact ite_guard (ite_guard rfl (join_guard ..)) rfl
  · rfl

theorem recheckRequest_guard (q : Request) : (e.recheckRequest v q).inp.guard = e.inp.guard := by
  refine ite_guard rfl ?_
  split <;> rfl

theorem unmuteRampEndAt_guard : (unmuteRampEndAt v e).inp.guard = e.inp.guard := by
  have hresumed {e' : Ev} (h : e'.inp.guard = e.inp.guard) :
      (if e'.inp.seq = .idle then e'.resumeGlide v else e').inp.guard = e.inp.guard :=
    ite_guard ((resumeGlide_guard ..).trans h) h
  refine ite_guard (hresumed ?_) rfl
  split
  · exact recheckRequest_guard ..
  · rfl

theorem recordTracked_guard (align : Nat) (w : Write) : (x.recordTracked align w).guard = x.guard := by
  have hrecord : (x.record w).guard = x.guard := by cases w <;> rfl
  unfold Inp.recordTracked
  dsimp only
  split
  · exact hrecord
  · exact hrecord

theorem startSettling_guard (y : Sys) : (x.startSettling y).guard = x.guard := by
  unfold Inp.startSettling
  split <;> rfl

theorem recheckDone_guard (y : Sys) : (x.recheckDone y).guard = x.guard := by
  unfold Inp.recheckDone
  dsimp only
  split
  · split
    · rfl
    · exact startSettling_guard ..
  · rfl

theorem toIssuer_guard (i : Issuer) : (e.toIssuer v i).inp.guard = e.inp.guard := by
  unfold Ev.toIssuer
  split
  · exact stepAcked_guard ..
  · exact stepAcked_guard ..
  · rw [Ev.mod_inp]
    split
    · exact startSettling_guard ..
    · rfl
  · exact ite_guard (recheckDone_guard ..) rfl
  · rfl

theorem ackAt_guard : (ackAt v e).inp.guard = e.inp.guard := by
  unfold ackAt
  split
  · rfl
  · refine (moveOn_guard ..).trans ((toIssuer_guard ..).trans ?_)
    exact ite_guard (recordTracked_guard ..) ((clampGlide_guard ..).trans (recordTracked_guard ..))

/-! ### Taps and ownership -/

theorem openTapAt_guard (d : Slot) (level : Option (BitVec 16)) :
    (openTapAt d level v e).inp.guard = e.inp.guard := ite_guard rfl rfl

theorem setLevelAt_guard (d : Slot) (relative : Bool) (w : BitVec 16) :
    (setLevelAt d relative w v e).inp.guard = e.inp.guard := by
  unfold setLevelAt
  split <;> rfl

theorem setTapMuteAt_guard (d : Slot) (on : Bool) : (setTapMuteAt d on v e).inp.guard = e.inp.guard := by
  unfold setTapMuteAt
  split <;> rfl

theorem captureOwner_guard : x.captureOwner.guard = x.guard := by
  unfold Inp.captureOwner
  split <;> rfl

theorem handedOver_guard (incoming : Option Slot) : (x.handedOver incoming).guard = x.guard := by
  have hgive : ((x.captureOwner).giveTo incoming).guard = x.guard := by
    cases incoming <;> exact captureOwner_guard x
  unfold Inp.handedOver Inp.handOverGlide
  split
  · split <;> exact hgive
  · exact hgive

theorem handOn_guard : e.handOn.inp.guard = e.inp.guard := by
  rw [handOn_eq]
  exact handedOver_guard ..

theorem leave_guard (d : Slot) : (e.leave d).inp.guard = e.inp.guard := ite_guard (handOn_guard e) rfl

theorem retire_guard (d : Slot) : (e.retire d).inp.guard = e.inp.guard := leave_guard e d

theorem closeTapAt_guard (d : Slot) : (closeTapAt d v e).inp.guard = e.inp.guard :=
  ite_guard (retire_guard e d) rfl

theorem claimAt_guard (d : Slot) (force : Bool) : (claimAt d force v e).inp.guard = e.inp.guard := by
  refine ite_guard rfl (ite_guard rfl (ite_guard rfl ?_))
  split
  · exact handedOver_guard ..
  · refine ite_guard rfl (ite_guard (handedOver_guard ..) ?_)
    rw [Ev.answer_inp, Ev.mod_inp]
    unfold joinQueue
    split <;> rfl

theorem releaseAt_guard (d : Slot) : (releaseAt d v e).inp.guard = e.inp.guard :=
  ite_guard (handOn_guard e) (ite_guard rfl rfl)

end SameGuard

/-! ## Events that keep the law of the guard record -/

/-- An event keeps the law of the guard record of its input. -/
def KeepsGuardLaw (f : Env → Ev → Ev) : Prop :=
  ∀ v x, x.guard.Lawful → (f v ⟨x, [], .done⟩).inp.guard.Lawful

theorem KeepsGuardLaw.of_same {f : Env → Ev → Ev} (hf : ∀ v e, (f v e).inp.guard = e.inp.guard) :
    KeepsGuardLaw f := by
  intro v x h
  rw [hf]
  exact h

/-- SET GAIN clears the back-off total and no more of the guard (R103). -/
theorem setGainAt_keepsGuard (d : Slot) (relative : Bool) (w : Byte) (rate : Option Byte) :
    KeepsGuardLaw (setGainAt d relative w rate) := by
  intro v x h
  unfold setGainAt
  split
  · exact h
  split
  · exact h
  · refine guardLawful_withTotal ?_ (Nat.zero_le 60)
    rw [takeTarget_guard]
    exact h

theorem configureInputAt_keepsGuard (c : InputConfig) : KeepsGuardLaw (configureInputAt c) := by
  intro v x h
  unfold configureInputAt
  split
  · exact h
  · exact guardLawful_configure h c

theorem windowExpiry_keepsGuard : KeepsGuardLaw fun _ e =>
    if isDue e.inp.guard.timer then
      e.mod fun x => { x with guard := { x.guard with count := 0, timer := none } }
    else e := by
  intro v x h
  dsimp only
  split
  · exact guardLawful_cleared h
  · exact h

/-- The threshold clears the counting, and a back-off keeps its total to 60 dB (R99, R101). -/
theorem guardLawful_threshold {v : Env} {e : Ev}
    (h : Guard.Lawful { e.inp.guard with count := 0, timer := none }) : (e.threshold v).inp.guard.Lawful := by
  unfold Ev.threshold
  dsimp only
  split
  · rw [Ev.tellOverload, Ev.emit_inp, Ev.backOff, guardGlide_guard]
    exact guardLawful_withTotal h (Nat.min_le_left 60 _)
  · exact h

theorem clipAt_keepsGuard : KeepsGuardLaw clipAt := by
  intro v x h
  by_cases hcounts : x.countsClips = true
  · rcases Nat.lt_or_ge (min 15 (x.guard.count + 1)) x.guard.threshold with hc | hc
    · rw [clipAt_below hcounts hc]
      exact guardLawful_counted h _ hc
    · rw [clipAt_reached hcounts hc]
      exact guardLawful_threshold (guardLawful_cleared (g := x.guard) h)
  · rw [clipAt_ignored hcounts]
    exact h

/-- A control reset clears the counting (R104). -/
theorem guardLawful_controlReset {x : Inp} (h : x.guard.Lawful) : x.controlReset.guard.Lawful := by
  refine guardLawful_cleared (g := x.captureOwner.guard) ?_
  rw [captureOwner_guard]
  exact h

/-! ## What adds nothing to the queues -/

/-- Each queue of slot record `q` is an end of that of `r`: entries may have left, and none has come. -/
def QueuesShrink (r q : SlotRec) : Prop := q.requests <:+ r.requests ∧ q.responses <:+ r.responses

theorem queuesShrink_of_same {r q : SlotRec} (hreq : q.requests = r.requests)
    (hres : q.responses = r.responses) : QueuesShrink r q :=
  ⟨hreq ▸ List.suffix_rfl, hres ▸ List.suffix_rfl⟩

theorem QueuesShrink.refl (r : SlotRec) : QueuesShrink r r := queuesShrink_of_same rfl rfl

theorem QueuesShrink.trans {r q p : SlotRec} (h : QueuesShrink r q) (h' : QueuesShrink q p) :
    QueuesShrink r p := ⟨h'.1.trans h.1, h'.2.trans h.2⟩

theorem queuesShrink_of_empty {r q : SlotRec} (hreq : q.requests = []) (hres : q.responses = []) :
    QueuesShrink r q := ⟨hreq ▸ List.nil_suffix, hres ▸ List.nil_suffix⟩

theorem queuesShrink_raise (n : Sticky) (r : SlotRec) : QueuesShrink r (r.raise n) := by
  rw [SlotRec.raise_sameButNotices n r]
  exact .refl r

/-- A control reset clears the queues of every slot but the system slot and the CLOSED ones (R117). -/
theorem queuesShrink_controlReset (d : Slot) (tapped : Input → Bool) (r : SlotRec) :
    QueuesShrink r (r.controlReset d tapped) := by
  unfold SlotRec.controlReset
  extract_lets cleared marked
  have hmarked : QueuesShrink r marked := by
    unfold marked
    split
    · exact queuesShrink_of_same rfl rfl
    · exact queuesShrink_of_same rfl rfl
  split
  · exact hmarked
  split
  · exact hmarked
  · exact queuesShrink_of_empty rfl rfl

/-- The timings in the ranges of R129. -/
def TimingsInRange (y : Sys) : Prop :=
  1 ≤ y.settle ∧ y.settle ≤ 30 ∧ 5 ≤ y.discharge ∧ y.discharge ≤ 50 ∧ y.align ≤ 63

/-- Pointer and count in range, and a control reset requested only while a bundle is applied (R116, R119). -/
def ExecutorLawful (x : Executor) : Prop :=
  x.pointer ≠ 0 ∧ x.resetCount ≤ 255 ∧ (x.resetRequested = true → x.run.isSome = true)

theorem systemLawful_iff (s : State) : s.SystemLawful ↔ TimingsInRange s.sys ∧ ExecutorLawful s.executor := by
  simp only [State.SystemLawful, TimingsInRange, ExecutorLawful, and_assoc]

theorem TimingsInRange.setTiming {y : Sys} (h : TimingsInRange y) (a b c : Option Byte) :
    TimingsInRange (y.setTiming a b c) := by
  obtain ⟨hset, hset', hdis, hdis', hal⟩ := h
  obtain ⟨cset, cset'⟩ := carried_mem hset hset' a
  obtain ⟨cdis, cdis'⟩ := carried_mem hdis hdis' b
  obtain ⟨-, cal'⟩ := carried_mem (Nat.zero_le _) hal c
  exact ⟨cset, cset', cdis, cdis', cal'⟩

/-- State `t` follows on `s` with nothing added to a queue, the same bundle in execution, and the other laws
kept. -/
structure AddsNothing (s t : State) : Prop where
  slots : ∀ d, QueuesShrink (s.slot d) (t.slot d)
  run : t.executor.run = s.executor.run
  executor : ExecutorLawful s.executor → ExecutorLawful t.executor
  timings : TimingsInRange s.sys → TimingsInRange t.sys
  guards : s.GuardsLawful → t.GuardsLawful

/-- The four laws pass from `s` to `t`. -/
structure LawsKept (s t : State) : Prop where
  queues : s.QueuesBounded → t.QueuesBounded
  bundles : s.BundlesLawful → t.BundlesLawful
  guards : s.GuardsLawful → t.GuardsLawful
  system : s.SystemLawful → t.SystemLawful

theorem LawsKept.refl (s : State) : LawsKept s s := ⟨id, id, id, id⟩

theorem LawsKept.trans {s t u : State} (h : LawsKept s t) (h' : LawsKept t u) : LawsKept s u :=
  ⟨h'.queues ∘ h.queues, h'.bundles ∘ h.bundles, h'.guards ∘ h.guards, h'.system ∘ h.system⟩

theorem AddsNothing.refl (s : State) : AddsNothing s s := ⟨fun _ => .refl _, rfl, id, id, id⟩

theorem AddsNothing.trans {s t u : State} (h : AddsNothing s t) (h' : AddsNothing t u) : AddsNothing s u :=
  ⟨fun d => (h.slots d).trans (h'.slots d), h'.run.trans h.run, h'.executor ∘ h.executor,
    h'.timings ∘ h.timings, h'.guards ∘ h.guards⟩

theorem AddsNothing.laws {s t : State} (h : AddsNothing s t) : LawsKept s t where
  queues := by
    rintro ⟨hlen, hroom⟩
    refine ⟨fun d => ?_, fun r hr => ?_⟩
    · obtain ⟨hreq, hres⟩ := h.slots d
      exact ⟨Nat.le_trans hreq.length_le (hlen d).1, Nat.le_trans hres.length_le (hlen d).2⟩
    · exact Nat.le_trans (h.slots r.slot).2.length_le (hroom r (h.run ▸ hr))
  bundles := by
    rintro ⟨hqueued, hrun⟩
    refine ⟨fun d => ?_, fun r hr => hrun r (h.run ▸ hr)⟩
    obtain ⟨hreq, hres⟩ := hqueued d
    exact ⟨fun b hb => hreq b ((h.slots d).1.subset hb), fun x hx => hres x ((h.slots d).2.subset hx)⟩
  guards := h.guards
  system hs := by
    obtain ⟨ht, he⟩ := (systemLawful_iff s).1 hs
    exact (systemLawful_iff t).2 ⟨h.timings ht, h.executor he⟩

section Adds
variable (s : State)

/-- What changes slots and guard records alone. -/
theorem addsNothing_of_same {s t : State} (hslots : ∀ d, QueuesShrink (s.slot d) (t.slot d))
    (hexec : t.executor = s.executor) (hsys : t.sys = s.sys) (hguards : s.GuardsLawful → t.GuardsLawful) :
    AddsNothing s t :=
  ⟨hslots, congrArg Executor.run hexec, fun h => hexec ▸ h, fun h => hsys ▸ h, hguards⟩

/-- The port, the free values and the waiting commands bear on no law. -/
theorem addsNothing_rest (p : Port) (n : Nat) (is : List Instr) :
    AddsNothing s { s with port := p, freeCount := n, pending := is } :=
  addsNothing_of_same (fun _ => .refl _) rfl rfl id

theorem addsNothing_shiftOut (bs : List Byte) : AddsNothing s (s.shiftOut bs) := addsNothing_rest ..

theorem addsNothing_takeImage (bs : List ImageByte) : AddsNothing s (s.takeImage bs).1 := addsNothing_rest ..

theorem addsNothing_ackJudged (k : Input) : AddsNothing s (s.ackJudged k) := by
  rw [State.ackJudged_eq]
  exact addsNothing_rest ..

theorem addsNothing_setSys {y : Sys} (h : TimingsInRange s.sys → TimingsInRange y) :
    AddsNothing s { s with sys := y } :=
  ⟨fun _ => .refl _, rfl, id, h, id⟩

theorem addsNothing_modSlot {d : Slot} {f : SlotRec → SlotRec} (h : QueuesShrink (s.slot d) (f (s.slot d))) :
    AddsNothing s (s.modSlot d f) := by
  refine addsNothing_of_same (fun c => ?_) rfl rfl id
  by_cases hc : c = d
  · subst hc
    rwa [State.modSlot_slot_self]
  · rw [State.modSlot_slot_ne s f hc]
    exact .refl _

/-- A change of one input whose guard record stays lawful. -/
theorem guardsLawful_setInp {s : State} {k : Input} {x : Inp} (hx : (s.inp k).guard.Lawful → x.guard.Lawful)
    (h : s.GuardsLawful) : (s.setInp k x).GuardsLawful := by
  intro j
  rw [State.setInp_inp]
  split
  · exact hx (h k)
  · exact h j

theorem addsNothing_setInp {k : Input} {x : Inp} (hx : (s.inp k).guard.Lawful → x.guard.Lawful) :
    AddsNothing s (s.setInp k x) :=
  addsNothing_of_same (fun _ => .refl _) rfl rfl (guardsLawful_setInp hx)

theorem addsNothing_commit {k : Input} {e : Ev} (he : (s.inp k).guard.Lawful → e.inp.guard.Lawful) :
    AddsNothing s (s.commit k e) := by
  refine addsNothing_of_same (fun d => ?_) (State.commit_executor ..) (State.commit_sys ..) fun h j => ?_
  · rw [State.commit_slot s k e d]
    exact queuesShrink_of_same rfl rfl
  · by_cases hj : j = k
    · subst hj
      rw [State.commit_inp_self]
      exact he (h j)
    · rw [State.commit_inp_ne s e hj]
      exact h j

theorem addsNothing_atInput {f : Env → Ev → Ev} (hf : KeepsGuardLaw f) (k : Input) :
    AddsNothing s (s.atInput k f) :=
  addsNothing_commit s (hf s.env (s.inp k))

theorem addsNothing_atInputs {f : Env → Ev → Ev} (hf : KeepsGuardLaw f) (p : Inp → Bool) :
    AddsNothing s (s.atInputs p f) :=
  State.atInputs_kept (P := AddsNothing s) p f (fun t k h => h.trans (addsNothing_atInput t hf k)) s (.refl s)

theorem guardsLawful_map {s : State} {f : Inp → Inp} (hf : ∀ x, x.guard.Lawful → (f x).guard.Lawful)
    (h : s.GuardsLawful) {t : State} (ht : t.inputs = s.inputs.map f) : t.GuardsLawful := by
  intro k
  rw [State.inp, ht, Table.get_map]
  exact hf _ (h k)

theorem addsNothing_tick : AddsNothing s s.tick := by
  refine addsNothing_of_same (fun d => ?_) rfl rfl fun h => ?_
  · rw [State.slot, State.slot, State.tick, Table.get_map]
    exact queuesShrink_of_same rfl rfl
  · exact guardsLawful_map (fun _ hx => guardLawful_tick hx) h rfl

/-- A control reset counts up to 255 and leaves no reset requested (R116, R117). -/
theorem addsNothing_controlReset : AddsNothing s s.controlReset where
  slots d := by
    have hd : s.controlReset.slot d = (s.slot d).controlReset d fun k => (s.inp k).holds d := Table.get_ofFn ..
    rw [hd]
    exact queuesShrink_controlReset ..
  run := rfl
  executor := fun ⟨hpointer, _, _⟩ => ⟨hpointer, Nat.min_le_left 255 _, nofun⟩
  timings := id
  guards h := guardsLawful_map (fun _ => guardLawful_controlReset) h rfl

/-- A control reset is requested while a bundle is applied (R116). -/
theorem addsNothing_requestReset (h : s.executor.run.isSome = true) : AddsNothing s s.requestReset :=
  ⟨fun _ => .refl _, rfl, fun ⟨hpointer, hcount, _⟩ => ⟨hpointer, hcount, fun _ => h⟩, id, id⟩

theorem addsNothing_closeSlot (d : Slot) : AddsNothing s (s.closeSlot d) := by
  have hretired := addsNothing_atInputs s (.of_same fun _ e => retire_guard e d) fun x => x.holds d
  exact hretired.trans (addsNothing_modSlot _ (queuesShrink_of_empty rfl rfl))

theorem addsNothing_absence (d : Slot) : AddsNothing s (s.absence d) := by
  have hleft := addsNothing_atInputs s (.of_same fun _ e => leave_guard e d)
    fun x => x.owner == some d || x.queue.contains d
  exact hleft.trans (addsNothing_modSlot _ (queuesShrink_of_empty rfl rfl))

end Adds

/-! ## Results (R126, R153) -/

theorem opResultLawful_whole (c : ResultCode) : (OpResult.whole c).Lawful :=
  ⟨rfl, Nat.zero_le 64, Nat.zero_le 32, nofun⟩

theorem opResultLawful_single (c : ResultCode) {image : List Byte} (h : image.length ≤ 32) :
    (OpResult.single c image).Lawful := by
  unfold OpResult.single
  split
  · exact ⟨rfl, (by decide : 1 ≤ 64), h, nofun⟩
  · exact ⟨rfl, (by decide : 1 ≤ 64), h, nofun⟩

/-- The refused inputs are some of those applied to, and a first one is there only with a refusal. -/
theorem opResultLawful_summary {done : List (Input × ResultCode)} {image : List Byte}
    (hdone : done.length ≤ 64) (himage : image.length ≤ 32) : (OpResult.summary done image).Lawful := by
  have hle : (done.filter fun x => x.2.refusal).length ≤ done.length := List.length_filter_le ..
  refine ⟨(Nat.sub_add_cancel hle).symm, hdone, himage, fun hfirst => ?_⟩
  cases hrefused : done.filter fun x => x.2.refusal with
  | nil => simp [OpResult.summary, hrefused] at hfirst
  | cons x xs => simp [OpResult.summary, hrefused]

theorem setBytes_length (bs : List Bool) : (setBytes bs).length = 8 := by simp [setBytes]

theorem statusImage_length (s : State) : (statusImage s).length = 21 := by
  simp [statusImage, statedAll, setBytes_length]

theorem marksImage_length (r : SlotRec) : (marksImage r).length = 11 := by
  simp [marksImage, statedAll, setBytes_length]

theorem deskImage_length (s : State) (d : Slot) : (deskImage s d).length = 12 := rfl

theorem tapImage_length (x : Inp) (k : Input) (d : Slot) (t : Tap) : (tapImage x k d t).length = 10 := rfl

theorem glideBytes_length (g : Option Glide) : (glideBytes g).length = 5 := by
  cases g with
  | none => rfl
  | some g => cases h : g.staged <;> simp [glideBytes, h]

theorem inputImage_length (s : State) (k : Input) : (inputImage s k).length = 32 := by
  simp [inputImage, glideBytes_length, queueBytes, guardBytes, statedAll, signedBytes, natBytes, bytesOf16]

/-! ## The bundle in execution (R121, R126) -/

/-- Bundle `r` is in execution and has an operation left to apply. -/
def Applies (s : State) (r : Run) : Prop := s.executor.run = some r ∧ r.pos < r.ops.length

/-- An application adds nothing to the queues, and its image is no longer than the input image. -/
structure SoundAt (s : State) (a : Applied) : Prop where
  adds : AddsNothing s a.state
  image : a.image.length ≤ 32

theorem runLawful_gathered {r : Run} {x : OpResult} (h : r.Lawful) (hp : r.pos < r.ops.length) (hx : x.Lawful) :
    Run.Lawful { r with pos := r.pos + 1, results := r.results ++ [x], progress := none } := by
  obtain ⟨hops, hops', -, hlen, hres, -⟩ := h
  refine ⟨hops, hops', hp, by simp [hlen], ?_, nofun⟩
  exact List.forall_mem_append.2 ⟨hres, List.forall_mem_singleton.2 hx⟩

theorem runLawful_progress {r : Run} {q : Progress} (h : r.Lawful) (hp : r.pos < r.ops.length)
    (hrest : q.rest ≠ []) (hlen : q.done.length + q.rest.length ≤ 64) :
    Run.Lawful { r with progress := some q } := by
  obtain ⟨hops, hops', hpos, hres, hlaw, -⟩ := h
  refine ⟨hops, hops', hpos, hres, hlaw, ?_⟩
  rintro _ ⟨⟩
  exact ⟨hp, hrest, hlen⟩

section Executor
variable {s u : State} {r : Run}

/-- The bundle in execution goes on. -/
theorem lawsKept_setRun {q : Run} (hr : s.executor.run = some r) (hslot : q.slot = r.slot)
    (hq : r.Lawful → q.Lawful) : LawsKept s (s.setRun (some q)) where
  queues := by
    rintro ⟨hlen, hroom⟩
    refine ⟨hlen, ?_⟩
    rintro _ ⟨⟩
    rw [hslot]
    exact hroom r hr
  bundles := by
    rintro ⟨hqueued, hrun⟩
    refine ⟨hqueued, ?_⟩
    rintro _ ⟨⟩
    exact hq (hrun r hr)
  guards := id
  system hs := by
    obtain ⟨ht, hpointer, hcount, -⟩ := (systemLawful_iff s).1 hs
    exact (systemLawful_iff _).2 ⟨ht, hpointer, hcount, fun _ => rfl⟩

theorem lawsKept_gather (hr : Applies s r) (hu : AddsNothing s u) {x : OpResult} (hx : r.Lawful → x.Lawful) :
    LawsKept s (u.gather r x) :=
  hu.laws.trans (lawsKept_setRun (hu.run.trans hr.1) rfl fun h => runLawful_gathered h hr.2 (hx h))

theorem lawsKept_gatherSingle (hr : Applies s r) (hu : AddsNothing s u) (c : ResultCode) {image : List Byte}
    (h : image.length ≤ 32) : LawsKept s (u.gatherSingle r c image) :=
  lawsKept_gather hr hu fun _ => opResultLawful_single c h

theorem lawsKept_applyAt (hr : Applies s r) {one : Input → State → Applied} {k : Input} {rest : List Input}
    {past : List (Input × ResultCode)} (hone : SoundAt s (one k s))
    (hlen : r.Lawful → past.length + (rest.length + 1) ≤ 64) : LawsKept s (s.applyAt r one k rest past) := by
  have hdone (h : r.Lawful) : (past ++ [(k, (one k s).code)]).length + rest.length ≤ 64 := by
    have := hlen h
    rw [List.length_append, List.length_singleton]
    omega
  unfold State.applyAt
  split
  · exact lawsKept_gather hr hone.adds fun h => opResultLawful_summary (hdone h) hone.image
  · rename_i hrest
    exact hone.adds.laws.trans (lawsKept_setRun (hone.adds.run.trans hr.1) rfl fun h =>
      runLawful_progress h hr.2 hrest (hdone h))

theorem expand_length_le (s : State) (p : Pattern) : (s.expand p).length ≤ 64 :=
  Nat.le_trans (List.length_filter_le ..) (Nat.le_of_eq List.length_finRange)

theorem checkPattern_ok {d : Slot} {p : Pattern} {exact : Bool} {ks : List Input}
    (h : s.checkPattern d p exact = .ok ks) : ks = s.expand p := by
  unfold State.checkPattern at h
  split at h
  · cases h
  split at h
  · cases h
  split at h
  · cases h
  · exact (Except.ok.inj h).symm

theorem lawsKept_onPattern (hr : Applies s r) {p : Pattern} {exact : Bool} {one : Input → State → Applied}
    (hone : ∀ k, SoundAt s (one k s)) : LawsKept s (s.onPattern r p exact one) := by
  have hleft (q : Progress) (hq : r.progress = some q) (h : r.Lawful) : q.done.length + q.rest.length ≤ 64 := by
    obtain ⟨-, -, -, -, -, hprogress⟩ := h
    exact (hprogress q hq).2.2
  unfold State.onPattern
  split
  · rename_i k rest past hq
    exact lawsKept_applyAt hr (hone k) (hleft _ hq)
  · rename_i past hq
    exact lawsKept_gather hr (.refl s) fun h => opResultLawful_summary (hleft _ hq h) (by decide)
  · split
    · exact lawsKept_gather hr (.refl s) fun _ => opResultLawful_whole _
    · exact lawsKept_gather hr (.refl s) fun _ => opResultLawful_whole _
    · rename_i k rest hks
      refine lawsKept_applyAt hr (hone k) fun _ => ?_
      have := expand_length_le s p
      rw [← checkPattern_ok hks, List.length_cons] at this
      rwa [List.length_nil, Nat.zero_add]

theorem lawsKept_onEvent (hr : Applies s r) {p : Pattern} {exact : Bool} {f : Env → Ev → Ev}
    (hf : KeepsGuardLaw f) : LawsKept s (s.onPattern r p exact (applyEvent f)) :=
  lawsKept_onPattern hr fun k => ⟨addsNothing_atInput s hf k, by simp [applyEvent]⟩

theorem lawsKept_onDesk (hr : Applies s r) {d : BitVec 3} {one : Slot → State → Applied}
    (hone : ∀ c, SoundAt s (one c s)) : LawsKept s (s.onDesk r d one) := by
  unfold State.onDesk
  split
  · exact lawsKept_gather hr (.refl s) fun _ => opResultLawful_whole _
  · exact lawsKept_gatherSingle hr (hone _).adds _ (hone _).image

theorem applies_of_nextRecord {c : OpRec} (h : s.nextRecord = some (r, c)) : Applies s r := by
  obtain ⟨hrun, hc⟩ := State.nextRecord_run h
  exact ⟨hrun, (List.getElem?_eq_some_iff.1 hc).1⟩

theorem lawsKept_applyKind {kind : Byte} {body : Run → Op → State}
    (hbody : ∀ r o, Applies s r → LawsKept s (body r o)) : LawsKept s (s.applyKind kind body) := by
  unfold State.applyKind
  split
  · exact .refl s
  · rename_i r c hn
    have hr := applies_of_nextRecord hn
    split
    · split
      · exact lawsKept_gather hr (.refl s) fun _ => opResultLawful_whole _
      · split
        · exact lawsKept_gather hr (.refl s) fun _ => opResultLawful_whole _
        · exact hbody r _ hr
    · exact .refl s

end Executor

/-! ## Bundles taken and ended (R120, R122) -/

theorem bundleWf_iff (b : Bundle) :
    b.wf = true ↔ 1 ≤ b.ops.length ∧ b.ops.length ≤ 16 ∧ ∀ c ∈ b.ops, c.params.length ≤ 15 := by
  simp [Bundle.wf, and_assoc]

theorem runLawful_taken (d : Slot) {b : Bundle} (h : b.wf = true) :
    Run.Lawful ⟨d, b.tag, b.ops, 0, [], none⟩ := by
  obtain ⟨hops, hops', -⟩ := (bundleWf_iff b).1 h
  exact ⟨hops, hops', Nat.zero_le _, rfl, nofun, nofun⟩

theorem chosen_takeable {s : State} {d : Slot} (h : s.chosen = some d) : s.takeable d = true := by
  unfold State.chosen at h
  split at h
  · cases h
    assumption
  · exact List.find?_some h

theorem takeable_iff (s : State) (d : Slot) : s.takeable d = true ↔
    (s.slot d).requests ≠ [] ∧ (s.slot d).responses.length < 4 ∧ s.executor.resetRequested = false := by
  simp [State.takeable, and_assoc]

/-- A bundle is taken only where there is room for its response (R120). -/
theorem lawsKept_takeBundle {s : State} {d : Slot} (htake : s.takeable d = true) :
    LawsKept s (s.takeBundle d) := by
  obtain ⟨-, hroom, -⟩ := (takeable_iff s d).1 htake
  unfold State.takeBundle
  split
  · exact .refl s
  · rename_i b rest hreq
    have hu : AddsNothing s (s.modSlot d fun r => { r with requests := rest }) :=
      addsNothing_modSlot s ⟨hreq ▸ List.suffix_cons b rest, List.suffix_rfl⟩
    refine ⟨fun h => ⟨(hu.laws.queues h).1, ?_⟩, fun h => ⟨(hu.laws.bundles h).1, ?_⟩, id, fun h => ?_⟩
    · rintro _ ⟨⟩
      exact Nat.le_trans (hu.slots d).2.length_le (Nat.le_of_lt_succ hroom)
    · rintro _ ⟨⟩
      obtain ⟨hqueued, -⟩ := h
      exact runLawful_taken d ((hqueued d).1 b (by simp [hreq]))
    · obtain ⟨ht, hpointer, hcount, -⟩ := (systemLawful_iff s).1 h
      refine (systemLawful_iff _).2 ⟨ht, ?_, hcount, fun _ => rfl⟩
      dsimp only
      split
      · exact hpointer
      · assumption

theorem respond_requests (s : State) (r : Run) (d : Slot) :
    ((respond s r).slot d).requests = (s.slot d).requests := by
  rw [respond_slot]
  split <;> rfl

theorem respond_responses (s : State) (r : Run) (d : Slot) : ((respond s r).slot d).responses =
    (s.slot d).responses ++ if d = r.slot then [⟨r.tag, r.results⟩] else [] := by
  rw [respond_slot]
  split
  · rfl
  · exact (List.append_nil _).symm

/-- After the response of its bundle the executor may become IDLE, once no reset is requested (R122). -/
theorem lawsKept_responded {s t : State} {r : Run} (hr : s.executor.run = some r)
    (hend : AddsNothing (respond s r) t) (hreset : t.executor.resetRequested = false) :
    LawsKept s (t.setRun none) where
  queues := by
    rintro ⟨hlen, hroom⟩
    refine ⟨fun d => ⟨?_, ?_⟩, nofun⟩
    · rw [State.setRun_slot]
      exact Nat.le_trans (hend.slots d).1.length_le (respond_requests s r d ▸ (hlen d).1)
    · refine Nat.le_trans (hend.slots d).2.length_le ?_
      rw [respond_responses, List.length_append]
      split
      · rename_i hd
        exact Nat.succ_le_succ (hd ▸ hroom r hr)
      · exact (hlen d).2
  bundles := by
    rintro ⟨hqueued, hrun⟩
    obtain ⟨-, hops, hpos, hlen, hresults, -⟩ := hrun r hr
    refine ⟨fun d => ⟨fun b hb => ?_, fun x hx => ?_⟩, nofun⟩
    · exact (hqueued d).1 b (respond_requests s r d ▸ (hend.slots d).1.subset hb)
    · have hx := (hend.slots d).2.subset hx
      rw [respond_responses] at hx
      rcases List.mem_append.1 hx with hx | hx
      · exact (hqueued d).2 x hx
      · split at hx
        · rw [List.mem_singleton.1 hx]
          exact ⟨Nat.le_trans (Nat.le_of_eq hlen) (Nat.le_trans hpos hops), hresults⟩
        · cases hx
  guards := hend.guards
  system h := by
    obtain ⟨ht, he⟩ := (systemLawful_iff s).1 h
    obtain ⟨hpointer, hcount, -⟩ := hend.executor he
    refine (systemLawful_iff _).2 ⟨hend.timings ht, hpointer, hcount, fun hrequested => ?_⟩
    rw [State.setRun_resetRequested, hreset] at hrequested
    cases hrequested

theorem lawsKept_endBundle {s : State} {r : Run} (hr : s.executor.run = some r) :
    LawsKept s (s.endBundle r) := by
  have hglides := addsNothing_atInputs (respond s r) (.of_same bundleEndAt_guard) Inp.bundleGlide
  unfold State.endBundle
  dsimp only
  split
  · exact lawsKept_responded hr (hglides.trans (addsNothing_controlReset _)) rfl
  · rename_i hreset
    exact lawsKept_responded hr hglides (Bool.eq_false_iff.2 hreset)

/-! ## Bundles accepted (R144) -/

theorem parseRecords_lawful {n : Nat} {bytes : List Byte} {ops : List OpRec}
    (h : parseRecords n bytes = some ops) : ops.length = n ∧ ∀ c ∈ ops, c.params.length ≤ 15 := by
  induction n generalizing bytes ops with
  | zero =>
    cases bytes with
    | nil =>
      cases h
      exact ⟨rfl, nofun⟩
    | cons b bs => cases h
  | succ n ih =>
    match bytes, h with
    | kind :: len :: rest, h =>
      rw [parseRecords] at h
      split at h
      · rename_i hfits
        obtain ⟨later, hlater, rfl⟩ := Option.map_eq_some_iff.1 h
        obtain ⟨hlen, hparams⟩ := ih hlater
        refine ⟨congrArg Nat.succ hlen, List.forall_mem_cons.2 ⟨?_, hparams⟩⟩
        exact Nat.le_trans (List.length_take_le ..) hfits.1
      · cases h

theorem parseBundle_wf {bytes : List Byte} {stray : Nat} {b : Bundle} (h : parseBundle bytes stray = .ok b) :
    b.wf = true := by
  unfold parseBundle at h
  split at h
  · cases h
  split at h
  · split at h
    · cases h
    rename_i hcount
    split at h
    · cases h
    split at h
    · rename_i ops hops
      cases h
      obtain ⟨hlen, hparams⟩ := parseRecords_lawful hops
      exact (bundleWf_iff _).2 ⟨by dsimp only; omega, by dsimp only; omega, hparams⟩
    · cases h
  · cases h

theorem accept_requests (d : Slot) (b : Bundle) (r : SlotRec) :
    (r.accept d b).requests = r.requests ++ [b] := by
  unfold SlotRec.accept
  dsimp only
  split <;> rfl

theorem accept_responses (d : Slot) (b : Bundle) (r : SlotRec) : (r.accept d b).responses = r.responses := by
  unfold SlotRec.accept
  dsimp only
  split <;> rfl

/-- A bundle is accepted only where the queue has room (R144). -/
theorem lawsKept_accept (s : State) {d : Slot} {b : Bundle} (hwf : b.wf = true)
    (hroom : (s.slot d).requests.length < 8) : LawsKept s (s.modSlot d (SlotRec.accept d b)) where
  queues := by
    rintro ⟨hlen, hrun⟩
    have hres c : ((s.modSlot d (SlotRec.accept d b)).slot c).responses = (s.slot c).responses := by
      rw [State.modSlot_slot]
      split
      · exact accept_responses ..
      · rfl
    refine ⟨fun c => ⟨?_, hres c ▸ (hlen c).2⟩, fun r hr => hres r.slot ▸ hrun r hr⟩
    rw [State.modSlot_slot]
    split
    · rename_i hc
      rw [hc, accept_requests, List.length_append, List.length_singleton]
      exact hroom
    · exact (hlen c).1
  bundles := by
    rintro ⟨hqueued, hrun⟩
    refine ⟨fun c => ?_, hrun⟩
    obtain ⟨hreq, hres⟩ := hqueued c
    rw [State.modSlot_slot]
    split
    · rw [accept_requests, accept_responses]
      exact ⟨List.forall_mem_append.2 ⟨hreq, List.forall_mem_singleton.2 hwf⟩, hres⟩
    · exact ⟨hreq, hres⟩
  guards := id
  system := id

theorem frameOutcome_accepted {s : State} {d : Slot} {b : Except FrameProblem Bundle}
    (h : s.frameOutcome d b = .accepted) : (s.slot d).requests.length < 8 := by
  unfold State.frameOutcome at h
  split at h
  · cases h
  split at h
  · cases h
  split at h
  · cases h
  · rename_i hfull
    exact Nat.lt_of_not_le hfull

theorem lawsKept_judgeFrame (s : State) (d : Slot) {b : Except FrameProblem Bundle}
    (hb : ∀ c, b = .ok c → c.wf = true) : LawsKept s (s.judgeFrame d b) := by
  unfold State.judgeFrame
  extract_lets o t port
  have ho : s.frameOutcome d b = o := rfl
  clear_value o
  have ht : LawsKept s t := by
    unfold t
    split
    · rename_i c
      exact lawsKept_accept s (hb c rfl) (frameOutcome_accepted ho)
    · exact (addsNothing_modSlot s (queuesShrink_raise .overrun { s.slot d with overrun := true })).laws
    · exact .refl s
  exact ht.trans (addsNothing_rest t ..).laws

/-! ## The commands -/

/-- Where the outcome is a next state, the laws pass to it. -/
def NextKeeps (s : State) (o : Host.Outcome State Fault Refusal) : Prop := ∀ t, o = .next t → LawsKept s t

theorem nextKeeps_of_laws {s t : State} (h : LawsKept s t) : NextKeeps s (.next t) := by
  rintro _ ⟨⟩
  exact h

theorem nextKeeps_of_adds {s t : State} (h : AddsNothing s t) : NextKeeps s (.next t) :=
  nextKeeps_of_laws h.laws

theorem nextKeeps_atInput (s : State) (k : Input) {f : Env → Ev → Ev} (hf : KeepsGuardLaw f) :
    NextKeeps s (.next (s.atInput k f)) := nextKeeps_of_adds (addsNothing_atInput s hf k)

theorem nextKeeps_applyKind {s : State} {kind : Byte} {body : Run → Op → State}
    (hbody : ∀ r o, Applies s r → LawsKept s (body r o)) : NextKeeps s (.next (s.applyKind kind body)) :=
  nextKeeps_of_laws (lawsKept_applyKind hbody)

section Commands
variable (s : State)

/-! ### One application to an input or a slot -/

theorem soundAt_of_adds {s t : State} (h : AddsNothing s t) (c : ResultCode) : SoundAt s ⟨t, c, []⟩ :=
  ⟨h, Nat.zero_le 32⟩

theorem soundAt_takeImage (c : ResultCode) {bs : List ImageByte} (h : bs.length ≤ 32) :
    SoundAt s ⟨(s.takeImage bs).1, c, (s.takeImage bs).2⟩ :=
  ⟨addsNothing_takeImage s bs, Nat.le_trans (Nat.le_of_eq (fillImage_length ..)) h⟩

theorem soundAt_closeTapOne (d : Slot) (k : Input) : SoundAt s (closeTapOne d k s) := by
  have hclosed := addsNothing_atInput s (.of_same fun v e => closeTapAt_guard v e d) k
  refine soundAt_of_adds ?_ _
  split
  · exact hclosed.trans (addsNothing_modSlot _ (.refl _))
  · exact hclosed

theorem soundAt_readTapOne (d : Slot) (k : Input) : SoundAt s (readTapOne d k s) := by
  unfold readTapOne
  split
  · exact soundAt_of_adds (.refl s) _
  · exact soundAt_takeImage s _ (by rw [tapImage_length]; decide)

theorem soundAt_readInputOne (d : Slot) (k : Input) : SoundAt s (readInputOne d k s) := by
  obtain ⟨htaken, himage⟩ := soundAt_takeImage s .done (Nat.le_of_eq (inputImage_length s k))
  exact ⟨htaken.trans (addsNothing_modSlot _ (.refl _)), himage⟩

theorem soundAt_configureDeskOne (rank : Option Byte) (perms : Option Perms) (timeout : Option Byte)
    (d : Slot) : SoundAt s (configureDeskOne rank perms timeout d s) := by
  unfold configureDeskOne
  split
  · exact soundAt_of_adds (addsNothing_modSlot s (.refl _)) _
  · exact soundAt_of_adds (.refl s) _

theorem soundAt_openDeskOne (d : Slot) : SoundAt s (openDeskOne d s) := by
  unfold openDeskOne
  split
  · exact soundAt_of_adds (addsNothing_modSlot s (.refl _)) _
  · exact soundAt_of_adds (.refl s) _

theorem soundAt_closeDeskOne (d : Slot) : SoundAt s (closeDeskOne d s) := by
  unfold closeDeskOne
  split
  · exact soundAt_of_adds (.refl s) _
  split
  · exact soundAt_of_adds (.refl s) _
  · exact soundAt_of_adds (addsNothing_closeSlot s d) _

theorem soundAt_readDeskOne (d : Slot) : SoundAt s (readDeskOne d s) :=
  soundAt_takeImage s _ (by rw [deskImage_length]; decide)

/-! ### The bundle executor and the pins -/

theorem execUnknownOperationKind_keeps : NextKeeps s (execUnknownOperationKind s) := by
  refine nextKeeps_of_laws ?_
  split
  · rename_i r c hn
    split
    · exact .refl s
    · exact lawsKept_gather (applies_of_nextRecord hn) (.refl s) fun _ => opResultLawful_whole _
  · exact .refl s

theorem execBundleTake_keeps : NextKeeps s (execBundleTake s) := by
  refine nextKeeps_of_laws ?_
  split
  · rename_i hchosen
    exact lawsKept_takeBundle (chosen_takeable hchosen)
  · exact .refl s

theorem execBundleEnd_keeps : NextKeeps s (execBundleEnd s) := by
  refine nextKeeps_of_laws ?_
  split
  · rename_i hr
    split
    · exact lawsKept_endBundle hr
    · exact .refl s
  · exact .refl s

theorem timingsInRange_reset (psag supplyFlag rate96 : Bool) :
    TimingsInRange ⟨8, 15, 24, psag, supplyFlag, rate96⟩ := by
  simp [TimingsInRange]

/-- Power-on reset leaves a state that meets the four laws, whatever it met before (R118, R142). -/
theorem execPowerOnReset_keeps : NextKeeps s (execPowerOnReset s) := by
  refine nextKeeps_of_laws ⟨fun _ => ⟨fun d => ?_, nofun⟩, fun _ => ⟨fun d => ?_, nofun⟩,
    fun _ k => ?_, fun _ => ?_⟩
  · rw [State.slot, State.powerOn, Table.get_ofFn]
    exact ⟨Nat.zero_le 8, Nat.zero_le 4⟩
  · rw [State.slot, State.powerOn, Table.get_ofFn]
    exact ⟨nofun, nofun⟩
  · rw [State.inp, Table.get_map]
    exact guardLawful_reset
  · refine (systemLawful_iff _).2 ⟨?_, ?_, ?_, nofun⟩
    · exact timingsInRange_reset ..
    · exact (by decide : (5 : Slot) ≠ 0)
    · exact Nat.zero_le 255

theorem execCrstAssert_keeps : NextKeeps s (execCrstAssert s) := by
  refine nextKeeps_of_adds ?_
  split
  · rename_i hrun
    exact addsNothing_requestReset s hrun
  · exact addsNothing_controlReset s

theorem execPsagAssert_keeps : NextKeeps s (execPsagAssert s) := by
  refine nextKeeps_of_adds ?_
  split
  · exact .refl s
  · have hsys := addsNothing_setSys s (y := { s.sys with psag := true, supplyFlag := true }) id
    exact hsys.trans (addsNothing_modSlot _ (queuesShrink_raise ..))

/-! ### The control port -/

theorem execWriteBundle_keeps (d : Slot) (bytes : List Byte) (stray : Fin 8) :
    NextKeeps s (execWriteBundle d bytes stray s) :=
  nextKeeps_of_laws ((addsNothing_shiftOut s _).laws.trans
    (lawsKept_judgeFrame _ d fun _ hb => parseBundle_wf hb))

theorem execReadResponse_keeps (d : Slot) (n : Nat) : NextKeeps s (execReadResponse d n s) := by
  refine nextKeeps_of_adds ?_
  split
  · exact (addsNothing_shiftOut s _).trans
      (addsNothing_modSlot _ ⟨List.suffix_rfl, List.drop_suffix 1 _⟩)
  · exact addsNothing_shiftOut s _

theorem execReadPortStatus_keeps (n : Nat) : NextKeeps s (execReadPortStatus n s) := by
  refine nextKeeps_of_adds (addsNothing_of_same (fun d => ?_) rfl rfl id)
  rw [State.slot, State.slot, Table.get_ofFn]
  exact queuesShrink_of_same rfl rfl

theorem execSetQueueThreshold_keeps (d : Slot) (bytes : List Byte) :
    NextKeeps s (execSetQueueThreshold d bytes s) := by
  have hread (p : Port) := addsNothing_rest s p (s.takeImage (thresholdOut (s.slot d) bytes.length)).1.freeCount
    s.pending
  refine nextKeeps_of_adds ?_
  split
  · exact hread _
  · split
    · exact (hread _).trans (addsNothing_modSlot _ (.refl _))
    · exact hread _

theorem execIgnoredTransaction_keeps (cmd : Option Byte) (n : Nat) :
    NextKeeps s (execIgnoredTransaction cmd n s) := by
  refine nextKeeps_of_adds ?_
  split
  · exact addsNothing_rest ..
  · split
    · dsimp only
      split
      · exact addsNothing_rest ..
      · exact addsNothing_rest ..
    · exact .refl s

/-! ### Events of an input or a slot -/

theorem execFrontEndAck_keeps (k : Input) : NextKeeps s (execFrontEndAck k s) := by
  have hjudged := addsNothing_ackJudged s k
  cases hlate : s.ackLate k with
  | true =>
    rw [execFrontEndAck_late hlate]
    refine nextKeeps_of_adds (hjudged.trans (addsNothing_setInp _ ?_))
    rw [State.ackJudged_inp]
    exact id
  | false =>
    rw [execFrontEndAck_taken hlate]
    exact nextKeeps_of_adds (hjudged.trans (addsNothing_atInput _ (.of_same ackAt_guard) k))

theorem settleTimerExpiry_keepsGuard : KeepsGuardLaw fun _ e =>
    if e.inp.seq = .settling ∧ isDue e.inp.settleLeft then e.mod Inp.startUnmuting else e :=
  .of_same fun _ _ => ite_guard rfl rfl

theorem execPresenceTimerExpiry_keeps (d : Slot) : NextKeeps s (execPresenceTimerExpiry d s) := by
  refine nextKeeps_of_adds ?_
  split
  · exact addsNothing_absence s d
  · exact .refl s

theorem execGlideDonePulseEnd_keeps (d : Slot) : NextKeeps s (execGlideDonePulseEnd d s) := by
  refine nextKeeps_of_adds ?_
  split
  · exact addsNothing_modSlot s (.refl _)
  · exact .refl s

/-! ### The operations of a bundle -/

theorem lawsKept_gatherPlain {s u : State} {r : Run} (hr : Applies s r) (hu : AddsNothing s u)
    (c : ResultCode) : LawsKept s (u.gatherSingle r c []) :=
  lawsKept_gatherSingle hr hu c (Nat.zero_le 32)

/-- An image taken whole is the result of an operation that carries no pattern. -/
theorem lawsKept_gatherImage {s : State} {r : Run} (hr : Applies s r) (c : ResultCode) {bs : List ImageByte}
    (h : bs.length ≤ 32) : LawsKept s ((s.takeImage bs).1.gatherSingle r c (s.takeImage bs).2) :=
  have hsound := soundAt_takeImage s c h
  lawsKept_gatherSingle hr hsound.adds c hsound.image

/-- Every operation of a bundle keeps the laws: its applications to inputs and slots add nothing to a queue and
leave the guard records lawful, and its result is lawful. A record that carries another operation is none of
its own, and nothing happens. -/
theorem exec_operation_keeps {i : Instr} {kind : Byte} (hi : commandKind i = some kind) :
    NextKeeps s (exec i s) := by
  cases i with
  | openTap =>
    refine nextKeeps_applyKind fun r o hr => ?_
    split
    · exact lawsKept_onEvent hr (.of_same fun v e => openTapAt_guard v e _ _)
    · exact .refl s
  | closeTap =>
    refine nextKeeps_applyKind fun r o hr => ?_
    split
    · exact lawsKept_onPattern hr fun k => soundAt_closeTapOne s r.slot k
    · exact .refl s
  | setLevel =>
    refine nextKeeps_applyKind fun r o hr => ?_
    split
    · exact lawsKept_onEvent hr (.of_same fun v e => setLevelAt_guard v e _ _ _)
    · exact .refl s
  | setTapMute =>
    refine nextKeeps_applyKind fun r o hr => ?_
    split
    · exact lawsKept_onEvent hr (.of_same fun v e => setTapMuteAt_guard v e _ _)
    · exact .refl s
  | readTap =>
    refine nextKeeps_applyKind fun r o hr => ?_
    split
    · exact lawsKept_onPattern hr fun k => soundAt_readTapOne s r.slot k
    · exact .refl s
  | claim =>
    refine nextKeeps_applyKind fun r o hr => ?_
    split
    · exact lawsKept_onEvent hr (.of_same fun v e => claimAt_guard v e _ _)
    · exact .refl s
  | release =>
    refine nextKeeps_applyKind fun r o hr => ?_
    split
    · exact lawsKept_onEvent hr (.of_same fun v e => releaseAt_guard v e _)
    · exact .refl s
  | setGain =>
    refine nextKeeps_applyKind fun r o hr => ?_
    split
    · exact lawsKept_onEvent hr (setGainAt_keepsGuard _ _ _ _)
    · exact .refl s
  | stopGlide =>
    refine nextKeeps_applyKind fun r o hr => ?_
    split
    · exact lawsKept_onEvent hr (.of_same fun v e => stopGlideAt_guard v e _)
    · exact .refl s
  | setPhantom =>
    refine nextKeeps_applyKind fun r o hr => ?_
    split
    · exact lawsKept_onEvent hr (.of_same fun v e => requestAt_guard v e _ _)
    · exact .refl s
  | setMode =>
    refine nextKeeps_applyKind fun r o hr => ?_
    split
    · exact lawsKept_onEvent hr (.of_same fun v e => requestAt_guard v e _ _)
    · exact .refl s
  | recheckFrontEnd =>
    refine nextKeeps_applyKind fun r o hr => ?_
    split
    · exact lawsKept_onEvent hr (.of_same fun v e => recheckAt_guard v e _)
    · exact .refl s
  | readInput =>
    refine nextKeeps_applyKind fun r o hr => ?_
    split
    · exact lawsKept_onPattern hr fun k => soundAt_readInputOne s r.slot k
    · exact .refl s
  | readMarks =>
    refine nextKeeps_applyKind fun r o hr => ?_
    split
    · exact lawsKept_gatherImage hr _ (by rw [marksImage_length]; decide)
    · exact .refl s
  | clearMarks =>
    refine nextKeeps_applyKind fun r o hr => ?_
    split
    · exact lawsKept_onPattern hr fun k => soundAt_of_adds (addsNothing_modSlot s (.refl _)) _
    · exact .refl s
  | setNoticeEnables =>
    refine nextKeeps_applyKind fun r o hr => ?_
    split
    · exact lawsKept_gatherPlain hr (addsNothing_modSlot s (.refl _)) _
    · exact .refl s
  | clearNotices =>
    refine nextKeeps_applyKind fun r o hr => ?_
    split
    · exact lawsKept_gatherPlain hr (addsNothing_modSlot s (.refl _)) _
    · exact .refl s
  | keepalive =>
    refine nextKeeps_applyKind fun r o hr => ?_
    split
    · exact lawsKept_gatherPlain hr (.refl s) _
    · exact .refl s
  | configureInput =>
    refine nextKeeps_applyKind fun r o hr => ?_
    split
    · exact lawsKept_onEvent hr (configureInputAt_keepsGuard _)
    · exact .refl s
  | configureDesk =>
    refine nextKeeps_applyKind fun r o hr => ?_
    split
    · exact lawsKept_onDesk hr (soundAt_configureDeskOne s _ _ _)
    · exact .refl s
  | openDesk =>
    refine nextKeeps_applyKind fun r o hr => ?_
    split
    · exact lawsKept_onDesk hr (soundAt_openDeskOne s)
    · exact .refl s
  | closeDesk =>
    refine nextKeeps_applyKind fun r o hr => ?_
    split
    · exact lawsKept_onDesk hr (soundAt_closeDeskOne s)
    · exact .refl s
  | readDesk =>
    refine nextKeeps_applyKind fun r o hr => ?_
    split
    · exact lawsKept_onDesk hr (soundAt_readDeskOne s)
    · exact .refl s
  | setTiming =>
    refine nextKeeps_applyKind fun r o hr => ?_
    split
    · exact lawsKept_gatherPlain hr (addsNothing_setSys s fun h => h.setTiming _ _ _) _
    · exact .refl s
  | readSystemStatus =>
    refine nextKeeps_applyKind fun r o hr => ?_
    split
    · exact lawsKept_gatherImage hr _ (by rw [statusImage_length]; decide)
    · exact .refl s
  | clearSupply =>
    refine nextKeeps_applyKind fun r o hr => ?_
    split
    · exact lawsKept_gatherPlain hr (addsNothing_setSys s (y := { s.sys with supplyFlag := false }) id) _
    · exact .refl s
  | controlReset =>
    refine nextKeeps_applyKind fun r o hr => ?_
    split
    · exact lawsKept_gatherPlain hr (addsNothing_requestReset s (by rw [hr.1]; rfl)) _
    · exact .refl s
  | _ => cases hi

/-! ### Every step -/

/-- Every command keeps the laws. -/
theorem exec_keeps (i : Instr) : NextKeeps s (exec i s) := by
  cases i with
  | writeBundle d bytes stray => exact execWriteBundle_keeps s d bytes stray
  | readResponse d n => exact execReadResponse_keeps s d n
  | readPortStatus n => exact execReadPortStatus_keeps s n
  | setQueueThreshold d bytes => exact execSetQueueThreshold_keeps s d bytes
  | ignoredTransaction cmd n => exact execIgnoredTransaction_keeps s cmd n
  | bundleTake => exact execBundleTake_keeps s
  | bundleEnd => exact execBundleEnd_keeps s
  | powerOnReset => exact execPowerOnReset_keeps s
  | crstAssert => exact execCrstAssert_keeps s
  | psagAssert => exact execPsagAssert_keeps s
  | psagDeassert => exact nextKeeps_of_adds (addsNothing_setSys s id)
  | frontEndAck k => exact execFrontEndAck_keeps s k
  | writeFail k => exact nextKeeps_atInput s k (.of_same failAt_guard)
  | muteRampEnd k => exact nextKeeps_atInput s k (.of_same muteRampEndAt_guard)
  | settleTimerExpiry k => exact nextKeeps_atInput s k settleTimerExpiry_keepsGuard
  | unmuteRampEnd k => exact nextKeeps_atInput s k (.of_same unmuteRampEndAt_guard)
  | stepTimerExpiry k => exact nextKeeps_atInput s k (.of_same stepTimerAt_guard)
  | clipIndication k => exact nextKeeps_atInput s k clipAt_keepsGuard
  | windowExpiry k => exact nextKeeps_atInput s k windowExpiry_keepsGuard
  | presenceTimerExpiry d => exact execPresenceTimerExpiry_keeps s d
  | glideDonePulseEnd d => exact execGlideDonePulseEnd_keeps s d
  | alignedChangeRelease d k n => exact nextKeeps_of_adds (addsNothing_setInp s id)
  | converterSample k v => exact nextKeeps_of_adds (addsNothing_setInp s id)
  | unknownOperationKind => exact execUnknownOperationKind_keeps s
  | _ => exact exec_operation_keeps s rfl

theorem step_keeps : NextKeeps s (step s) := by
  unfold step
  split
  · exact nextKeeps_of_adds (addsNothing_tick s)
  · rename_i i rest _
    intro t ht
    exact (addsNothing_rest s s.port s.freeCount rest).laws.trans (exec_keeps _ i t ht)

end Commands

/-- Settles O59: each of the four laws is inductive on its own, since every step passes each of them on. -/
theorem queuesAndSettingsKept : Obligations.QueuesAndSettingsKept :=
  ⟨fun s t h ht => (step_keeps s t ht).queues h, fun s t h ht => (step_keeps s t ht).bundles h,
    fun s t h ht => (step_keeps s t ht).guards h, fun s t h ht => (step_keeps s t ht).system h⟩
end Sys2Proof.QueueProofs
end

section
/-! PROOFS. The laws of the desk slots (R105, R106, R111, R113, R138, R148), which every step keeps. First what
leaves a slot record lawful, then which events give no slot a tap, then the state, and last the commands. -/

namespace Sys2Proof.SlotProofs

open Sys2Proof Sys2Proof.Machine Sys2Proof.TapProofs Sys2Proof.FeedProofs Sys2Proof.GlideProofs
  Sys2Proof.QueueProofs

/-! ## The law of a slot record -/

/-- What a CLOSED slot is to be: no mark, flag, bundle or response (R111). -/
def HoldsNothing (r : SlotRec) : Prop :=
  r.requests = [] ∧ r.responses = [] ∧ r.markCount = 0 ∧ r.flags = .clear ∧ r.pulse = none

/-- A pulse window is open only while the GLIDE_DONE flag is set (R138). -/
def PulseAgrees (r : SlotRec) : Prop := r.pulse.isSome = true → r.flags.glideDone = true

/-- The law of the record of slot `d` passes from `r` to `q`, and the slot is not closed. -/
structure RecordKept (d : Slot) (r q : SlotRec) : Prop where
  lawful : r.Lawful d → q.Lawful d
  live : r.state ≠ .closed → q.state ≠ .closed

/-- The desk table's part of the record is the same (R105). -/
def SameDesk (r q : SlotRec) : Prop :=
  q.state = r.state ∧ q.rank = r.rank ∧ q.perms = r.perms ∧ q.timeout = r.timeout ∧ q.timer = r.timer

section Records
variable {d : Slot} {r q p : SlotRec}

theorem RecordKept.refl (d : Slot) (r : SlotRec) : RecordKept d r r := ⟨id, id⟩

theorem RecordKept.trans (h : RecordKept d r q) (h' : RecordKept d q p) : RecordKept d r p :=
  ⟨h'.lawful ∘ h.lawful, h'.live ∘ h.live⟩

/-- A change of notices, queues and threshold keeps the law where it keeps what the law says of them. -/
theorem recordKept_of_sameDesk (hsame : SameDesk r q)
    (hnothing : r.state = .closed → HoldsNothing r → HoldsNothing q) (hpulse : PulseAgrees r → PulseAgrees q)
    (hthreshold : r.threshold ≤ 7 → q.threshold ≤ 7) : RecordKept d r q := by
  obtain ⟨hstate, hrank, hperms, htimeout, htimer⟩ := hsame
  refine ⟨?_, fun h => hstate ▸ h⟩
  rintro ⟨hsystem, hdesk, hclosed, hp, ht⟩
  unfold SlotRec.Lawful
  rw [hstate, hrank, hperms, htimeout, htimer]
  exact ⟨hsystem, hdesk, fun hc => hnothing hc (hclosed hc), hpulse hp, hthreshold ht⟩

/-! ### Notices and marks -/

theorem markCount_eq_zero : r.markCount = 0 ↔ ∀ k, r.marks.get k = false := by
  simp only [SlotRec.markCount, List.countP_eq_zero, id, Bool.not_eq_true, Table.get]
  refine ⟨fun h k => h _ (List.getElem_mem _), fun h a ha => ?_⟩
  obtain ⟨i, hi, rfl⟩ := List.getElem_of_mem ha
  exact h ⟨i, r.marks.size ▸ hi⟩

theorem recordKept_raise (n : Sticky) (r : SlotRec) : RecordKept d r (r.raise n) := by
  unfold SlotRec.raise
  split
  · rename_i hlive
    refine recordKept_of_sameDesk ⟨rfl, rfl, rfl, rfl, rfl⟩ (fun hc => absurd hc ((live_iff r).1 hlive)) ?_ id
    intro hp
    cases n with
    | glideDone => exact fun _ => rfl
    | _ => exact hp
  · exact .refl d r

theorem recordKept_mark (k : Input) (r : SlotRec) : RecordKept d r (r.mark k) := by
  unfold SlotRec.mark
  split
  · rename_i hlive
    exact recordKept_of_sameDesk ⟨rfl, rfl, rfl, rfl, rfl⟩ (fun hc => absurd hc ((live_iff r).1 hlive)) id id
  · exact .refl d r

theorem recordKept_clearMark (k : Input) (r : SlotRec) : RecordKept d r (r.clearMark k) := by
  refine recordKept_of_sameDesk ⟨rfl, rfl, rfl, rfl, rfl⟩ (fun _ => ?_) id id
  rintro ⟨hreq, hres, hmarks, hflags, hpulse⟩
  refine ⟨hreq, hres, markCount_eq_zero.2 fun j => ?_, hflags, hpulse⟩
  rw [SlotRec.clearMark, Table.get_set]
  split
  · rfl
  · exact markCount_eq_zero.1 hmarks j

theorem recordKept_turnEnables (on off : NoticeSet) (r : SlotRec) : RecordKept d r (r.turnEnables on off) := by
  refine recordKept_of_sameDesk ⟨rfl, rfl, rfl, rfl, rfl⟩ (fun _ => ?_) (fun hp => ?_) id
  · rintro ⟨hreq, hres, hmarks, hflags, hpulse⟩
    exact ⟨hreq, hres, hmarks, hflags, by simp [SlotRec.turnEnables, hpulse]⟩
  · intro h
    refine hp ?_
    unfold SlotRec.turnEnables at h
    dsimp only at h
    split at h
    · cases h
    · exact h

/-- Clearing GLIDE_DONE closes the pulse window with the flag (R138). -/
theorem recordKept_clearNotices (n : NoticeSet) (r : SlotRec) : RecordKept d r (r.clearNotices n) := by
  refine recordKept_of_sameDesk ⟨rfl, rfl, rfl, rfl, rfl⟩ (fun _ => ?_) (fun hp => ?_) id
  · rintro ⟨hreq, hres, hmarks, hflags, hpulse⟩
    refine ⟨hreq, hres, hmarks, ?_, by simp [SlotRec.clearNotices, hpulse]⟩
    simp only [SlotRec.clearNotices, hflags]
    rfl
  · intro h
    unfold SlotRec.clearNotices at h
    dsimp only at h
    split at h
    · cases h
    · rename_i hn
      have hset := hp h
      simpa [SlotRec.clearNotices, StickyFlags.clearNamed, hset] using hn

theorem recordKept_pulseEnd (r : SlotRec) : RecordKept d r { r with pulse := none } :=
  recordKept_of_sameDesk ⟨rfl, rfl, rfl, rfl, rfl⟩
    (fun _ ⟨hreq, hres, hmarks, hflags, _⟩ => ⟨hreq, hres, hmarks, hflags, rfl⟩) (fun _ => nofun) id

/-! ### The port -/

theorem recordKept_overrun (r : SlotRec) (b : Bool) : RecordKept d r { r with overrun := b } :=
  recordKept_of_sameDesk ⟨rfl, rfl, rfl, rfl, rfl⟩ (fun _ => id) id id

theorem recordKept_refuse (r : SlotRec) : RecordKept d r r.refuse :=
  (recordKept_overrun r true).trans (recordKept_raise ..)

theorem recordKept_threshold (r : SlotRec) {n : Nat} (hn : n ≤ 7) : RecordKept d r { r with threshold := n } :=
  recordKept_of_sameDesk ⟨rfl, rfl, rfl, rfl, rfl⟩ (fun _ => id) id fun _ => hn

theorem recordKept_dropResponse (r : SlotRec) : RecordKept d r { r with responses := r.responses.drop 1 } := by
  refine recordKept_of_sameDesk ⟨rfl, rfl, rfl, rfl, rfl⟩ (fun _ => ?_) id id
  rintro ⟨hreq, hres, hmarks, hflags, hpulse⟩
  exact ⟨hreq, by rw [hres]; rfl, hmarks, hflags, hpulse⟩

/-- The queues of a slot that is not CLOSED are free to change. -/
theorem recordKept_queues (hlive : r.state ≠ .closed) (requests : List Bundle) (responses : List Response) :
    RecordKept d r { r with requests := requests, responses := responses } :=
  recordKept_of_sameDesk ⟨rfl, rfl, rfl, rfl, rfl⟩ (fun hc => absurd hc hlive) id id

/-! ### The desk table -/

/-- A desk of 1..5 that comes to be OPEN has its presence timer loaded (R109, R113). -/
theorem recordKept_open (hd : d ≠ 0) (r : SlotRec) : RecordKept d r { r.reload with state := .opened } := by
  refine ⟨?_, fun _ => nofun⟩
  rintro ⟨-, hdesk, -, hpulse, hthreshold⟩
  obtain ⟨hrank, hrank', htime, htime', -⟩ := hdesk hd
  exact ⟨fun h0 => absurd h0 hd, fun _ => ⟨hrank, hrank', htime, htime', iff_of_true rfl rfl⟩, nofun, hpulse,
    hthreshold⟩

theorem recordKept_accept (hlive : r.state ≠ .closed) (b : Bundle) : RecordKept d r (r.accept d b) := by
  have hqueued : RecordKept d r { r with requests := r.requests ++ [b] } := recordKept_queues hlive _ _
  unfold SlotRec.accept
  dsimp only
  split
  · exact hqueued
  · rename_i hd
    exact hqueued.trans (recordKept_open hd _)

theorem recordKept_configure (hd : d ≠ 0) (rank : Option Byte) (perms : Option Perms) (timeout : Option Byte)
    (r : SlotRec) : RecordKept d r (r.configure rank perms timeout) := by
  refine ⟨?_, id⟩
  rintro ⟨-, hdesk, hclosed, hpulse, hthreshold⟩
  obtain ⟨hrank, hrank', htime, htime', htimer⟩ := hdesk hd
  obtain ⟨crank, crank'⟩ := carried_mem hrank hrank' rank
  obtain ⟨ctime, ctime'⟩ := carried_mem htime htime' timeout
  exact ⟨fun h0 => absurd h0 hd, fun _ => ⟨crank, crank', ctime, ctime', htimer⟩, hclosed, hpulse, hthreshold⟩

theorem recordKept_goAbsent (hd : d ≠ 0) (r : SlotRec) : RecordKept d r r.goAbsent := by
  refine ⟨?_, fun _ => nofun⟩
  rintro ⟨-, hdesk, -, hpulse, hthreshold⟩
  obtain ⟨hrank, hrank', htime, htime', -⟩ := hdesk hd
  exact ⟨fun h0 => absurd h0 hd, fun _ => ⟨hrank, hrank', htime, htime', by simp [SlotRec.goAbsent]⟩, nofun,
    hpulse, hthreshold⟩

/-- The teardown leaves a CLOSED slot that holds nothing, with its attributes (R110). -/
theorem lawful_tearDown (hd : d ≠ 0) (h : r.Lawful d) : r.tearDown.Lawful d := by
  obtain ⟨-, hdesk, -, -, -⟩ := h
  obtain ⟨hrank, hrank', htime, htime', -⟩ := hdesk hd
  have hmarks : r.tearDown.markCount = 0 := markCount_eq_zero.2 fun k => by simp [SlotRec.tearDown]
  exact ⟨fun h0 => absurd h0 hd, fun _ => ⟨hrank, hrank', htime, htime', by simp [SlotRec.tearDown]⟩,
    fun _ => ⟨rfl, rfl, hmarks, rfl, rfl⟩, nofun, (by decide : 2 ≤ 7)⟩

/-- A control reset makes ABSENT every slot but the system slot and the CLOSED ones (R117). -/
theorem recordKept_controlReset (d : Slot) (tapped : Input → Bool) (r : SlotRec) :
    RecordKept d r (r.controlReset d tapped) := by
  unfold SlotRec.controlReset
  extract_lets cleared marked
  have hcleared : RecordKept d r cleared :=
    recordKept_of_sameDesk ⟨rfl, rfl, rfl, rfl, rfl⟩
      (fun _ ⟨hreq, hres, hmarks, _, _⟩ => ⟨hreq, hres, hmarks, rfl, rfl⟩) (fun _ => nofun) id
  have hmarked : RecordKept d r marked := by
    unfold marked
    split
    · rename_i hlive
      exact hcleared.trans (recordKept_of_sameDesk ⟨rfl, rfl, rfl, rfl, rfl⟩
        (fun hc => absurd hc ((live_iff cleared).1 hlive)) id id)
    · exact hcleared
  split
  · exact hmarked
  rename_i hd
  split
  · exact hmarked
  · exact hmarked.trans (recordKept_goAbsent hd marked)

theorem isSome_runDown (timer : Option Nat) : (runDown timer).isSome = timer.isSome := Option.isSome_map

theorem recordKept_tick (r : SlotRec) : RecordKept d r r.tick := by
  refine ⟨?_, id⟩
  rintro ⟨hsystem, hdesk, hclosed, hpulse, hthreshold⟩
  refine ⟨fun h0 => ?_, fun hd => ?_, fun hc => ?_, fun hp => hpulse (isSome_runDown r.pulse ▸ hp), hthreshold⟩
  · obtain ⟨hstate, hrank, hperms, htimer⟩ := hsystem h0
    exact ⟨hstate, hrank, hperms, by simp [SlotRec.tick, htimer, runDown]⟩
  · obtain ⟨hrank, hrank', htime, htime', htimer⟩ := hdesk hd
    exact ⟨hrank, hrank', htime, htime', isSome_runDown r.timer ▸ htimer⟩
  · obtain ⟨hreq, hres, hmarks, hflags, hnone⟩ := hclosed hc
    exact ⟨hreq, hres, hmarks, hflags, by simp [SlotRec.tick, hnone, runDown]⟩

/-- A slot after power-on reset, with SUPPLY raised for the system slot where PSAG is asserted (R22, R105). -/
theorem lawful_powerOn (d : Slot) (psag : Bool) :
    SlotRec.Lawful d
      { SlotRec.reset d with flags := { StickyFlags.clear with supply := psag && d == 0 } } := by
  by_cases hd : d = 0
  · subst hd
    exact ⟨fun _ => ⟨rfl, rfl, rfl, rfl⟩, fun h => absurd rfl h, nofun, nofun, (by decide : 2 ≤ 7)⟩
  · have hmarks : (SlotRec.reset d).markCount = 0 := markCount_eq_zero.2 fun k => by simp [SlotRec.reset]
    refine ⟨fun h0 => absurd h0 hd, fun _ => ?_, fun _ => ⟨rfl, rfl, hmarks, ?_, rfl⟩, nofun,
      (by decide : 2 ≤ 7)⟩
    · simp [SlotRec.reset, hd]
    · simp [StickyFlags.clear, hd]

end Records

/-! ## Events that give no slot a tap -/

/-- No slot has a tap at the input after the event that it had not before. -/
def GivesNoTap (f : Env → Ev → Ev) : Prop :=
  ∀ v e d, (f v e).inp.holds d = true → e.inp.holds d = true

theorem GivesNoTap.of_same {f : Env → Ev → Ev} (hf : ∀ v e, (f v e).inp.holds = e.inp.holds) : GivesNoTap f :=
  fun v e _ h => hf v e ▸ h

theorem holds_eq_of_mixer {x y : Inp} (h : mixer y = mixer x) : y.holds = x.holds := funext (holds_of_mixer h)

theorem GivesNoTap.of_mixer {f : Env → Ev → Ev} (hf : ∀ v e, mixer (f v e).inp = mixer e.inp) : GivesNoTap f :=
  .of_same fun v e => holds_eq_of_mixer (hf v e)

theorem ite_holds {p : Prop} [Decidable p] {a b : Ev} {held : Slot → Bool} (ha : a.inp.holds = held)
    (hb : b.inp.holds = held) : (if p then a else b).inp.holds = held := by
  split
  · exact ha
  · exact hb

section Events
variable (v : Env) (e : Ev) (x : Inp)

/-! ### Taps and ownership -/

theorem setTap_holds (d c : Slot) (t : Option Tap) :
    (x.setTap d t).holds c = if c = d then t.isSome else x.holds c := by
  rw [Inp.holds, Inp.setTap_tap]
  split <;> rfl

theorem modTap_holds (d : Slot) (f : Tap → Tap) : (x.modTap d f).holds = x.holds := by
  funext c
  rw [Inp.holds, Inp.modTap_tap]
  split
  · exact Option.isSome_map
  · rfl

theorem mapTaps_holds (f : Tap → Tap) : Inp.holds { x with taps := x.taps.map (Option.map f) } = x.holds := by
  funext c
  rw [Inp.holds, Inp.tap, Table.get_map]
  exact Option.isSome_map

/-- A tap set where one stood. -/
theorem setTap_some_holds {d : Slot} {t : Tap} (h : x.tap d = some t) (u : Tap) :
    (x.setTap d (some u)).holds = x.holds := by
  funext c
  rw [setTap_holds]
  split
  · simp [Inp.holds, *]
  · rfl

theorem openTapAt_holds {d c : Slot} {level : Option (BitVec 16)}
    (h : (openTapAt d level v e).inp.holds c = true) : e.inp.holds c = true ∨ c = d := by
  unfold openTapAt at h
  split at h
  · exact .inl h
  · rw [Ev.answer_inp, Ev.mod_inp, setTap_holds] at h
    split at h
    · exact .inr ‹_›
    · exact .inl h

theorem setLevelAt_holds (d : Slot) (relative : Bool) (w : BitVec 16) :
    (setLevelAt d relative w v e).inp.holds = e.inp.holds := by
  unfold setLevelAt
  split
  · rfl
  · exact setTap_some_holds _ ‹_› _

theorem setTapMuteAt_holds (d : Slot) (on : Bool) : (setTapMuteAt d on v e).inp.holds = e.inp.holds := by
  unfold setTapMuteAt
  split
  · rfl
  · exact setTap_some_holds _ ‹_› _

theorem captureOwner_holds : x.captureOwner.holds = x.holds := by
  unfold Inp.captureOwner
  split
  · exact modTap_holds ..
  · rfl

theorem giveTo_holds (incoming : Option Slot) : (x.giveTo incoming).holds = x.holds := by
  cases incoming with
  | none => rfl
  | some d => exact modTap_holds ..

theorem handedOver_holds (incoming : Option Slot) : (x.handedOver incoming).holds = x.holds :=
  (holds_eq_of_mixer (handOverGlide_mixer _)).trans ((giveTo_holds ..).trans (captureOwner_holds x))

theorem handOn_holds : e.handOn.inp.holds = e.inp.holds := by
  rw [handOn_eq]
  exact handedOver_holds ..

theorem leave_holds (d : Slot) : (e.leave d).inp.holds = e.inp.holds := ite_holds (handOn_holds e) rfl

theorem retire_holds (d c : Slot) : (e.retire d).inp.holds c = (c != d && e.inp.holds c) := by
  rw [Ev.retire, Ev.mod_inp, setTap_holds, leave_holds]
  split <;> simp [*]

theorem retire_givesNoTap (d : Slot) : GivesNoTap fun _ e => e.retire d := by
  intro v e c h
  rw [retire_holds, Bool.and_eq_true] at h
  exact h.2

theorem closeTapAt_givesNoTap (d : Slot) : GivesNoTap (closeTapAt d) := by
  intro v e c h
  unfold closeTapAt at h
  split at h
  · exact retire_givesNoTap d v e c h
  · exact h

theorem claimAt_holds (d : Slot) (force : Bool) : (claimAt d force v e).inp.holds = e.inp.holds := by
  refine ite_holds rfl (ite_holds rfl (ite_holds rfl ?_))
  split
  · exact handedOver_holds ..
  · exact ite_holds rfl (ite_holds (handedOver_holds ..) (holds_eq_of_mixer (joinQueue_mixer ..)))

theorem releaseAt_holds (d : Slot) : (releaseAt d v e).inp.holds = e.inp.holds :=
  ite_holds (handOn_holds e) (ite_holds rfl rfl)

theorem controlReset_holds : x.controlReset.holds = x.holds := captureOwner_holds x

/-! ### The sequencer and acknowledgements -/

theorem requestAt_holds (d : Slot) (value : FrontValue) : (requestAt d value v e).inp.holds = e.inp.holds := by
  refine ite_holds rfl (ite_holds rfl (ite_holds (ite_holds rfl rfl) ?_))
  split <;> rfl

theorem enterFault_holds : (e.enterFault v).inp.holds = e.inp.holds :=
  calc (e.enterFault v).inp.holds = (e.endGlide v).inp.holds := rfl
    _ = e.inp.holds := holds_eq_of_mixer (endGlide_mixer ..)

theorem failAt_holds : (failAt v e).inp.holds = e.inp.holds := by
  unfold failAt
  split
  · rfl
  · exact ite_holds ((holds_eq_of_mixer (pump_mixer ..)).trans (enterFault_holds ..)) rfl

theorem muteRampEndAt_holds : (muteRampEndAt v e).inp.holds = e.inp.holds := by
  unfold muteRampEndAt
  split
  · exact ite_holds (ite_holds rfl ((holds_eq_of_mixer (join_mixer ..)).trans rfl)) rfl
  · rfl

theorem recheckRequest_holds (q : Request) : (e.recheckRequest v q).inp.holds = e.inp.holds := by
  refine ite_holds rfl ?_
  split <;> rfl

theorem unmuteRampEndAt_holds : (unmuteRampEndAt v e).inp.holds = e.inp.holds := by
  have hresumed {e' : Ev} (h : e'.inp.holds = e.inp.holds) :
      (if e'.inp.seq = .idle then e'.resumeGlide v else e').inp.holds = e.inp.holds :=
    ite_holds ((holds_eq_of_mixer (resumeGlide_mixer ..)).trans h) h
  refine ite_holds (hresumed ?_) rfl
  split
  · exact recheckRequest_holds ..
  · rfl

theorem recordTracked_holds (align : Nat) (w : Write) : (x.recordTracked align w).holds = x.holds := by
  have hrecord : (x.record w).holds = x.holds := holds_eq_of_mixer (record_mixer w x)
  unfold Inp.recordTracked
  dsimp only
  split
  · exact hrecord
  · exact (mapTaps_holds ..).trans hrecord

theorem startSettling_holds (y : Sys) : (x.startSettling y).holds = x.holds := by
  unfold Inp.startSettling
  split <;> rfl

theorem recheckDone_holds (y : Sys) : (x.recheckDone y).holds = x.holds := by
  unfold Inp.recheckDone
  dsimp only
  split
  · split
    · rfl
    · exact startSettling_holds ..
  · rfl

theorem toIssuer_holds (i : Issuer) : (e.toIssuer v i).inp.holds = e.inp.holds := by
  unfold Ev.toIssuer
  split
  · exact (holds_eq_of_mixer (stepAcked_mixer ..)).trans (mapTaps_holds ..)
  · exact holds_eq_of_mixer (stepAcked_mixer ..)
  · rw [Ev.mod_inp]
    split
    · exact startSettling_holds ..
    · rfl
  · exact ite_holds (recheckDone_holds ..) rfl
  · rfl

theorem ackAt_holds : (ackAt v e).inp.holds = e.inp.holds := by
  unfold ackAt
  split
  · rfl
  · refine (holds_eq_of_mixer (moveOn_mixer ..)).trans ((toIssuer_holds ..).trans ?_)
    exact ite_holds (recordTracked_holds ..)
      ((holds_eq_of_mixer (clampGlide_mixer ..)).trans (recordTracked_holds ..))

/-! ### Samples and releases -/

theorem sample_holds (rate96 : Bool) (w : Int) : (x.sample rate96 w).holds = x.holds :=
  mapTaps_holds x (Tap.advance rate96)

end Events

/-! ## The laws of the state -/

/-- A state that meets the laws and in which slot `c` is not CLOSED, as the slot of a bundle in execution is
not. -/
def LawfulFor (c : Slot) (s : State) : Prop := s.SlotsLawful ∧ (s.slot c).state ≠ .closed

section States
variable {c : Slot} {s t : State}

/-- The system slot is never CLOSED (R106). -/
theorem lawfulFor_system (h : s.SlotsLawful) : LawfulFor 0 s := by
  obtain ⟨hslots, -, -⟩ := id h
  obtain ⟨hsystem, -⟩ := hslots 0
  obtain ⟨hstate, -⟩ := hsystem rfl
  exact ⟨h, by rw [hstate]; nofun⟩

theorem lawfulFor_run (h : s.SlotsLawful) {r : Run} (hr : s.executor.run = some r) : LawfulFor r.slot s := by
  obtain ⟨-, -, hrun⟩ := id h
  exact ⟨h, hrun r hr⟩

/-- The laws pass to a state whose slot records keep theirs, whose taps are old ones or of slots that are not
CLOSED, and whose bundle in execution is of such a slot. -/
theorem LawfulFor.pass (h : LawfulFor c s) (hslots : ∀ d, RecordKept d (s.slot d) (t.slot d))
    (htaps : ∀ k d, (t.inp k).holds d = true → (s.inp k).holds d = true ∨ (s.slot d).state ≠ .closed)
    (hrun : ∀ r ∈ t.executor.run, (s.slot r.slot).state ≠ .closed) : LawfulFor c t := by
  obtain ⟨⟨hs, ht, -⟩, hc⟩ := h
  refine ⟨⟨fun d => (hslots d).lawful (hs d), fun k d hk => (hslots d).live ?_,
    fun r hr => (hslots r.slot).live (hrun r hr)⟩, (hslots c).live hc⟩
  exact (htaps k d hk).elim (ht k d) id

/-- What bears on no law: system, port, free values and queue. -/
theorem LawfulFor.rest (h : LawfulFor c s) (y : Sys) (p : Port) (n : Nat) (is : List Instr) :
    LawfulFor c { s with sys := y, port := p, freeCount := n, pending := is } := h

theorem LawfulFor.setRun (h : LawfulFor c s) {q : Option Run}
    (hq : ∀ r ∈ q, (s.slot r.slot).state ≠ .closed) : LawfulFor c (s.setRun q) :=
  h.pass (fun _ => .refl ..) (fun _ _ => .inl) hq

theorem LawfulFor.modSlot (h : LawfulFor c s) {d : Slot} {f : SlotRec → SlotRec}
    (hf : RecordKept d (s.slot d) (f (s.slot d))) : LawfulFor c (s.modSlot d f) := by
  obtain ⟨⟨-, -, hrun⟩, -⟩ := id h
  refine h.pass (fun b => ?_) (fun _ _ => .inl) hrun
  by_cases hb : b = d
  · subst hb
    rwa [State.modSlot_slot_self]
  · rw [State.modSlot_slot_ne s f hb]
    exact .refl ..

theorem recordKept_signal (k : Input) (d : Slot) (r : SlotRec) (g : Signal) :
    RecordKept d r (Signal.on k d r g) := by
  cases g with
  | raise n b =>
    rw [Signal.on]
    split
    · exact recordKept_raise ..
    · exact .refl d r
  | mark b =>
    rw [Signal.on]
    split
    · exact recordKept_mark ..
    · exact .refl d r

/-- Signals and marks keep the law of each record. -/
theorem recordKept_commit (s : State) (k : Input) (e : Ev) (d : Slot) :
    RecordKept d (s.slot d) ((s.commit k e).slot d) := by
  obtain ⟨-, -, -, -, -, -, hslot⟩ := Signal.foldl_at k e.out (s.setInp k e.inp)
  have hsignals (out : List Signal) (r : SlotRec) : RecordKept d r (out.foldl (fun r g => g.on k d r) r) := by
    induction out generalizing r with
    | nil => exact .refl d r
    | cons g out ih => exact (recordKept_signal k d r g).trans (ih _)
  have hout := hsignals e.out (s.slot d)
  rw [← State.setInp_slot s k e.inp, ← hslot] at hout
  rw [State.commit, State.markChanges_slot]
  split
  · exact hout.trans (recordKept_mark ..)
  · exact hout

theorem LawfulFor.commit (h : LawfulFor c s) {k : Input} {e : Ev}
    (he : ∀ d, e.inp.holds d = true → (s.inp k).holds d = true ∨ (s.slot d).state ≠ .closed) :
    LawfulFor c (s.commit k e) := by
  obtain ⟨⟨-, -, hrun⟩, -⟩ := id h
  refine h.pass (recordKept_commit s k e) (fun j d hj => ?_) fun r hr => hrun r (State.commit_executor s k e ▸ hr)
  by_cases hjk : j = k
  · subst hjk
    rw [State.commit_inp_self] at hj
    exact he d hj
  · rw [State.commit_inp_ne s e hjk] at hj
    exact .inl hj

theorem LawfulFor.atInput (h : LawfulFor c s) {f : Env → Ev → Ev} (hf : GivesNoTap f) (k : Input) :
    LawfulFor c (s.atInput k f) :=
  h.commit fun d hd => .inl (hf s.env _ d hd)

theorem LawfulFor.atInputs (h : LawfulFor c s) {f : Env → Ev → Ev} (hf : GivesNoTap f) (p : Inp → Bool) :
    LawfulFor c (s.atInputs p f) :=
  State.atInputs_kept (P := LawfulFor c) p f (fun _ k ht => ht.atInput hf k) s h

theorem LawfulFor.setInp (h : LawfulFor c s) {k : Input} {x : Inp} (hx : x.holds = (s.inp k).holds) :
    LawfulFor c (s.setInp k x) := by
  obtain ⟨⟨-, -, hrun⟩, -⟩ := id h
  refine h.pass (fun _ => .refl ..) (fun j d hj => .inl ?_) hrun
  rw [State.setInp_inp] at hj
  split at hj
  · subst_vars
    rwa [hx] at hj
  · exact hj

theorem LawfulFor.tick (h : LawfulFor c s) : LawfulFor c s.tick := by
  obtain ⟨⟨-, -, hrun⟩, -⟩ := id h
  refine h.pass (fun d => ?_) (fun k d hk => .inl ?_) hrun
  · rw [State.slot, State.slot, State.tick, Table.get_map]
    exact recordKept_tick _
  · rwa [State.inp, State.tick, Table.get_map] at hk

theorem LawfulFor.controlReset (h : LawfulFor c s) : LawfulFor c s.controlReset := by
  obtain ⟨⟨-, -, hrun⟩, -⟩ := id h
  refine h.pass (fun d => ?_) (fun k d hk => .inl ?_) hrun
  · have hd : s.controlReset.slot d = (s.slot d).controlReset d fun k => (s.inp k).holds d := Table.get_ofFn ..
    rw [hd]
    exact recordKept_controlReset ..
  · rwa [State.inp, State.controlReset, Table.get_map, controlReset_holds] at hk

theorem LawfulFor.requestReset (h : LawfulFor c s) : LawfulFor c s.requestReset := h

/-- A desk goes ABSENT with its taps kept (R114). -/
theorem LawfulFor.absence (h : LawfulFor c s) {d : Slot} (hd : d ≠ 0) : LawfulFor c (s.absence d) :=
  (h.atInputs (.of_same fun _ e => leave_holds e d) _).modSlot (recordKept_goAbsent hd _)

/-- After the retirements of a teardown the slot holds no tap (R110). -/
theorem retired_holds (s : State) (d : Slot) (k : Input) :
    ((s.atInputs (fun x => x.holds d) fun _ e => e.retire d).inp k).holds d = false := by
  have hvisited := visited_atInputs (f := fun _ e => e.retire d) (fun _ _ _ _ => rfl) s fun x => x.holds d
  by_cases hk : (s.inp k).holds d = true
  · rw [hvisited.visited k hk, State.evAt, retire_holds, bne_self_eq_false, Bool.false_and]
  · rw [hvisited.unvisited k hk]
    exact Bool.eq_false_iff.2 hk

/-- The slot's own part of the teardown, where no tap is left to it and no bundle of it is in execution
(R110). -/
theorem LawfulFor.tearDown (h : LawfulFor c s) {d : Slot} (hd : d ≠ 0) (hc : c ≠ d)
    (htapless : ∀ k, (s.inp k).holds d = false) (hidle : ∀ r ∈ s.executor.run, r.slot ≠ d) :
    LawfulFor c (s.modSlot d SlotRec.tearDown) := by
  obtain ⟨⟨hslots, htaps, hrun⟩, hlive⟩ := h
  refine ⟨⟨fun b => ?_, fun k b hk => ?_, fun r hr => ?_⟩, ?_⟩
  · by_cases hb : b = d
    · subst hb
      rw [State.modSlot_slot_self]
      exact lawful_tearDown hd (hslots b)
    · rw [State.modSlot_slot_ne _ _ hb]
      exact hslots b
  · have hb : b ≠ d := by
      rintro rfl
      rw [State.modSlot_inp, htapless] at hk
      cases hk
    rw [State.modSlot_slot_ne _ _ hb]
    exact htaps k b hk
  · rw [State.modSlot_slot_ne _ _ (hidle r hr)]
    exact hrun r hr
  · rwa [State.modSlot_slot_ne _ _ hc]

theorem LawfulFor.closeSlot (h : LawfulFor c s) {d : Slot} (hd : d ≠ 0) (hc : c ≠ d)
    (hidle : ∀ r ∈ s.executor.run, r.slot ≠ d) : LawfulFor c (s.closeSlot d) :=
  (h.atInputs (retire_givesNoTap d) _).tearDown hd hc (retired_holds s d)
    fun r hr => hidle r (State.atInputs_executor s _ _ ▸ hr)

end States

/-! ## The bundle executor -/

/-- Where the outcome is a next state, that state meets the laws of the slots. -/
def NextSlotsLawful (o : Host.Outcome State Fault Refusal) : Prop := ∀ t, o = .next t → t.SlotsLawful

theorem nextSlotsLawful {c : Slot} {t : State} (h : LawfulFor c t) : NextSlotsLawful (.next t) := by
  rintro _ ⟨⟩
  exact h.1

section Executor
variable {s u : State} {r : Run}

/-- The bundle in execution goes on. -/
theorem LawfulFor.goOn (h : LawfulFor r.slot u) {q : Run} (hq : q.slot = r.slot) :
    LawfulFor r.slot (u.setRun (some q)) := by
  refine h.setRun ?_
  rintro _ ⟨⟩
  rw [hq]
  exact h.2

theorem LawfulFor.gather (h : LawfulFor r.slot u) (x : OpResult) : LawfulFor r.slot (u.gather r x) :=
  h.goOn rfl

theorem LawfulFor.onPattern (h : LawfulFor r.slot s) {p : Pattern} {exact : Bool} {one : Input → State → Applied}
    (hone : ∀ k, LawfulFor r.slot (one k s).state) : LawfulFor r.slot (s.onPattern r p exact one) := by
  have happlied k rest past : LawfulFor r.slot (s.applyAt r one k rest past) := by
    unfold State.applyAt
    split
    · exact (hone k).gather _
    · exact (hone k).goOn rfl
  unfold State.onPattern
  split
  · exact happlied ..
  · exact h.gather _
  · split
    · exact h.gather _
    · exact h.gather _
    · exact happlied ..

theorem LawfulFor.onEvent (h : LawfulFor r.slot s) {p : Pattern} {exact : Bool} {f : Env → Ev → Ev}
    (hf : GivesNoTap f) : LawfulFor r.slot (s.onPattern r p exact (applyEvent f)) :=
  h.onPattern fun k => h.atInput hf k

theorem LawfulFor.onDesk (h : LawfulFor r.slot s) {d : BitVec 3} {one : Slot → State → Applied}
    (hone : ∀ c, LawfulFor r.slot (one c s).state) : LawfulFor r.slot (s.onDesk r d one) := by
  unfold State.onDesk
  split
  · exact h.gather _
  · exact (hone _).gather _

theorem applyKind_slotsLawful (h : s.SlotsLawful) {kind : Byte} {body : Run → Op → State}
    (hbody : ∀ r o, s.sends r o → LawfulFor r.slot s → LawfulFor r.slot (body r o)) :
    NextSlotsLawful (.next (s.applyKind kind body)) := by
  unfold State.applyKind
  split
  · exact nextSlotsLawful (lawfulFor_system h)
  · rename_i r c hn
    have hr := lawfulFor_run h (State.nextRecord_run hn).1
    split
    · split
      · exact nextSlotsLawful (hr.gather _)
      · rename_i o ho
        split
        · exact nextSlotsLawful (hr.gather _)
        · rename_i hsystem
          exact nextSlotsLawful (hbody r o ⟨c, hn, ho, fun hsys => by simpa [hsys] using hsystem⟩ hr)
    · exact nextSlotsLawful hr

/-- A desk operation is the system slot's (R125). -/
theorem slot_of_sends_system {o : Op} (h : s.sends r o) (ho : o.systemOnly = true) : r.slot = 0 := by
  obtain ⟨-, -, -, hsystem⟩ := h
  exact hsystem ho

/-! ### One application to an input or a slot -/

theorem LawfulFor.openTap (h : LawfulFor r.slot s) (level : Option (BitVec 16)) (k : Input) :
    LawfulFor r.slot (applyEvent (openTapAt r.slot level) k s).state := by
  refine h.commit fun d hd => ?_
  refine (openTapAt_holds _ _ hd).imp id ?_
  rintro rfl
  exact h.2

theorem LawfulFor.clearMark (h : LawfulFor r.slot s) (d : Slot) (k : Input) :
    LawfulFor r.slot (s.modSlot d (SlotRec.clearMark k)) := h.modSlot (recordKept_clearMark ..)

theorem LawfulFor.closeTapOne (h : LawfulFor r.slot s) (d : Slot) (k : Input) :
    LawfulFor r.slot (closeTapOne d k s).state := by
  have hclosed := h.atInput (closeTapAt_givesNoTap d) k
  unfold Machine.closeTapOne
  dsimp only
  split
  · exact hclosed.clearMark d k
  · exact hclosed

theorem LawfulFor.readTapOne (h : LawfulFor r.slot s) (d : Slot) (k : Input) :
    LawfulFor r.slot (readTapOne d k s).state := by
  unfold Machine.readTapOne
  split
  · exact h
  · exact h

theorem LawfulFor.configureDeskOne (h : LawfulFor r.slot s) (rank : Option Byte) (perms : Option Perms)
    (timeout : Option Byte) (d : Slot) : LawfulFor r.slot (configureDeskOne rank perms timeout d s).state := by
  unfold Machine.configureDeskOne
  split
  · rename_i hd
    exact h.modSlot (recordKept_configure hd.2 ..)
  · exact h

theorem LawfulFor.openDeskOne (h : LawfulFor r.slot s) (d : Slot) :
    LawfulFor r.slot (openDeskOne d s).state := by
  unfold Machine.openDeskOne
  split
  · rename_i hd
    exact h.modSlot (recordKept_open hd.2 _)
  · exact h

/-- The system slot closes another slot, which has no bundle in execution (R110). -/
theorem LawfulFor.closeDeskOne (h : LawfulFor r.slot s) (hr : s.executor.run = some r) (hsystem : r.slot = 0)
    (d : Slot) : LawfulFor r.slot (closeDeskOne d s).state := by
  unfold Machine.closeDeskOne
  split
  · exact h
  split
  · exact h
  · rename_i hd _
    have hne : r.slot ≠ d := hsystem ▸ Ne.symm hd
    refine h.closeSlot hd hne fun q hq => ?_
    obtain rfl : r = q := Option.some.inj (hr.symm.trans hq)
    exact hne

end Executor

/-! ## The commands -/

section Commands
variable {s : State}

/-! ### Bundles taken and ended -/

/-- A slot whose request queue holds a bundle is not CLOSED (R111). -/
theorem live_of_request (h : s.SlotsLawful) {d : Slot} {b : Bundle} {rest : List Bundle}
    (hreq : (s.slot d).requests = b :: rest) : (s.slot d).state ≠ .closed := by
  intro hc
  obtain ⟨hslots, -⟩ := h
  obtain ⟨-, -, hclosed, -⟩ := hslots d
  obtain ⟨hnone, -⟩ := hclosed hc
  rw [hnone] at hreq
  cases hreq

theorem lawfulFor_takeBundle (h : s.SlotsLawful) (d : Slot) : LawfulFor 0 (s.takeBundle d) := by
  have hs := lawfulFor_system h
  unfold State.takeBundle
  split
  · exact hs
  · rename_i b rest hreq
    have hlive := live_of_request h hreq
    have hkept : RecordKept d (s.slot d) { s.slot d with requests := rest } := recordKept_queues hlive _ _
    have htaken {c : Slot} (hc : LawfulFor c s) :
        LawfulFor c (s.modSlot d fun r => { r with requests := rest }) := hc.modSlot hkept
    refine (htaken hs).pass (fun _ => .refl ..) (fun _ _ => .inl) ?_
    rintro _ ⟨⟩
    exact (htaken ⟨h, hlive⟩).2

theorem execBundleTake_slotsLawful (h : s.SlotsLawful) : NextSlotsLawful (execBundleTake s) := by
  refine nextSlotsLawful (c := 0) ?_
  split
  · exact lawfulFor_takeBundle h _
  · exact lawfulFor_system h

theorem lawfulFor_endBundle (h : s.SlotsLawful) {r : Run} (hr : s.executor.run = some r) :
    LawfulFor r.slot (s.endBundle r) := by
  have hs := lawfulFor_run h hr
  have hresponded : LawfulFor r.slot (respond s r) := hs.modSlot (recordKept_queues hs.2 _ _)
  have hglides := hresponded.atInputs (.of_mixer bundleEndAt_mixer) Inp.bundleGlide
  unfold State.endBundle
  dsimp only
  split
  · exact hglides.controlReset.setRun nofun
  · exact hglides.setRun nofun

theorem execBundleEnd_slotsLawful (h : s.SlotsLawful) : NextSlotsLawful (execBundleEnd s) := by
  have hs := lawfulFor_system h
  unfold execBundleEnd
  split
  · rename_i hr
    split
    · exact nextSlotsLawful (lawfulFor_endBundle h hr)
    · exact nextSlotsLawful hs
  · exact nextSlotsLawful hs

theorem execUnknownOperationKind_slotsLawful (h : s.SlotsLawful) :
    NextSlotsLawful (execUnknownOperationKind s) := by
  unfold execUnknownOperationKind
  split
  · rename_i r c hn
    have hr := lawfulFor_run h (State.nextRecord_run hn).1
    split
    · exact nextSlotsLawful hr
    · exact nextSlotsLawful (hr.gather _)
  · exact nextSlotsLawful (lawfulFor_system h)

/-! ### The pins -/

/-- Power-on reset leaves lawful slots without taps and without a bundle in execution (R38, R118). -/
theorem execPowerOnReset_slotsLawful : NextSlotsLawful (execPowerOnReset s) := by
  rintro _ ⟨⟩
  refine ⟨fun d => ?_, fun k d hk => ?_, nofun⟩
  · rw [State.slot, State.powerOn, Table.get_ofFn]
    exact lawful_powerOn d _
  · rw [State.inp, Table.get_map, Inp.holds, Inp.tap, Inp.powerOn, Inp.reset, Table.get_fill] at hk
    cases hk

theorem execCrstAssert_slotsLawful (h : s.SlotsLawful) : NextSlotsLawful (execCrstAssert s) := by
  refine nextSlotsLawful (c := 0) ?_
  split
  · exact (lawfulFor_system h).requestReset
  · exact (lawfulFor_system h).controlReset

theorem execPsagAssert_slotsLawful (h : s.SlotsLawful) : NextSlotsLawful (execPsagAssert s) := by
  refine nextSlotsLawful (c := 0) ?_
  split
  · exact lawfulFor_system h
  · exact ((lawfulFor_system h).rest { s.sys with psag := true, supplyFlag := true } s.port s.freeCount
      s.pending).modSlot (recordKept_raise ..)

/-! ### The control port -/

theorem frameOutcome_live {d : Slot} {b : Except FrameProblem Bundle} (h : s.frameOutcome d b = .accepted) :
    (s.slot d).state ≠ .closed := by
  unfold State.frameOutcome at h
  split at h
  · cases h
  split at h
  · cases h
  · assumption

theorem execWriteBundle_slotsLawful (h : s.SlotsLawful) (d : Slot) (bytes : List Byte) (stray : Fin 8) :
    NextSlotsLawful (execWriteBundle d bytes stray s) := by
  have hs : LawfulFor 0 (s.shiftOut (zeros bytes.length)) := lawfulFor_system h
  refine nextSlotsLawful (c := 0) ?_
  generalize s.shiftOut (zeros bytes.length) = u at hs
  unfold State.judgeFrame
  extract_lets o t port
  have ho : u.frameOutcome d (parseBundle bytes stray) = o := rfl
  clear_value o
  have ht : LawfulFor 0 t := by
    unfold t
    split
    · exact hs.modSlot (recordKept_accept (frameOutcome_live ho) _)
    · exact hs.modSlot (recordKept_refuse _)
    · exact hs
  exact ht

theorem execReadResponse_slotsLawful (h : s.SlotsLawful) (d : Slot) (n : Nat) :
    NextSlotsLawful (execReadResponse d n s) := by
  have hs (bs : List Byte) : LawfulFor 0 (s.shiftOut bs) := lawfulFor_system h
  refine nextSlotsLawful (c := 0) ?_
  split
  · exact (hs _).modSlot (recordKept_dropResponse _)
  · exact hs _

theorem execReadPortStatus_slotsLawful (h : s.SlotsLawful) (n : Nat) :
    NextSlotsLawful (execReadPortStatus n s) := by
  obtain ⟨-, -, hrun⟩ := id h
  refine nextSlotsLawful ((lawfulFor_system h).pass (fun d => ?_) (fun _ _ => .inl) hrun)
  rw [State.slot, State.slot, Table.get_ofFn]
  exact recordKept_overrun ..

theorem execSetQueueThreshold_slotsLawful (h : s.SlotsLawful) (d : Slot) (bytes : List Byte) :
    NextSlotsLawful (execSetQueueThreshold d bytes s) := by
  have hs (bs : List ImageByte) (bs' : List Byte) : LawfulFor 0 ((s.takeImage bs).1.shiftOut bs') :=
    lawfulFor_system h
  refine nextSlotsLawful (c := 0) ?_
  split
  · exact lawfulFor_system h
  · split
    · rename_i hv
      exact (hs ..).modSlot (recordKept_threshold _ hv.2)
    · exact hs ..

theorem execIgnoredTransaction_slotsLawful (h : s.SlotsLawful) (cmd : Option Byte) (n : Nat) :
    NextSlotsLawful (execIgnoredTransaction cmd n s) := by
  have hs := lawfulFor_system h
  refine nextSlotsLawful (c := 0) ?_
  split
  · exact hs
  · split
    · dsimp only
      split
      · exact hs
      · exact hs
    · exact hs

/-! ### Events of an input or a slot -/

theorem atInput_slotsLawful (h : s.SlotsLawful) (k : Input) {f : Env → Ev → Ev} (hf : GivesNoTap f) :
    NextSlotsLawful (.next (s.atInput k f)) := nextSlotsLawful ((lawfulFor_system h).atInput hf k)

theorem setInp_slotsLawful (h : s.SlotsLawful) {k : Input} {x : Inp} (hx : x.holds = (s.inp k).holds) :
    NextSlotsLawful (.next (s.setInp k x)) := nextSlotsLawful ((lawfulFor_system h).setInp hx)

theorem execFrontEndAck_slotsLawful (h : s.SlotsLawful) (k : Input) :
    NextSlotsLawful (execFrontEndAck k s) := by
  have hjudged : (s.ackJudged k).SlotsLawful := by
    rw [State.ackJudged_eq]
    exact h
  cases hlate : s.ackLate k with
  | true =>
    rw [execFrontEndAck_late hlate]
    refine setInp_slotsLawful hjudged ?_
    rw [State.ackJudged_inp]
    rfl
  | false =>
    rw [execFrontEndAck_taken hlate]
    exact atInput_slotsLawful hjudged k (.of_same ackAt_holds)

/-- A presence timer that is due is that of a desk of 1..5, since the system slot has none (R106, R114). -/
theorem execPresenceTimerExpiry_slotsLawful (h : s.SlotsLawful) (d : Slot) :
    NextSlotsLawful (execPresenceTimerExpiry d s) := by
  refine nextSlotsLawful (c := 0) ?_
  split
  · rename_i hdue
    refine (lawfulFor_system h).absence ?_
    rintro rfl
    obtain ⟨hslots, -⟩ := h
    obtain ⟨hsystem, -⟩ := hslots 0
    obtain ⟨-, -, -, htimer⟩ := hsystem rfl
    have hzero := isDue_iff.1 hdue.2
    rw [htimer] at hzero
    cases hzero
  · exact lawfulFor_system h

theorem execGlideDonePulseEnd_slotsLawful (h : s.SlotsLawful) (d : Slot) :
    NextSlotsLawful (execGlideDonePulseEnd d s) := by
  refine nextSlotsLawful (c := 0) ?_
  split
  · exact (lawfulFor_system h).modSlot (recordKept_pulseEnd _)
  · exact lawfulFor_system h

/-! ### The operations of a bundle -/

/-- Every operation of a bundle keeps the laws: a tap comes to the sender alone, a slot is closed by the system
slot alone. A record that carries another operation is none of its own, and nothing happens. -/
theorem exec_operation_slotsLawful (h : s.SlotsLawful) {i : Instr} {kind : Byte}
    (hi : commandKind i = some kind) : NextSlotsLawful (exec i s) := by
  cases i with
  | openTap =>
    refine applyKind_slotsLawful h fun r o _ hr => ?_
    split
    · exact hr.onPattern fun k => hr.openTap _ k
    · exact hr
  | closeTap =>
    refine applyKind_slotsLawful h fun r o _ hr => ?_
    split
    · exact hr.onPattern fun k => hr.closeTapOne _ k
    · exact hr
  | setLevel =>
    refine applyKind_slotsLawful h fun r o _ hr => ?_
    split
    · exact hr.onEvent (.of_same fun v e => setLevelAt_holds v e _ _ _)
    · exact hr
  | setTapMute =>
    refine applyKind_slotsLawful h fun r o _ hr => ?_
    split
    · exact hr.onEvent (.of_same fun v e => setTapMuteAt_holds v e _ _)
    · exact hr
  | readTap =>
    refine applyKind_slotsLawful h fun r o _ hr => ?_
    split
    · exact hr.onPattern fun k => hr.readTapOne _ k
    · exact hr
  | claim =>
    refine applyKind_slotsLawful h fun r o _ hr => ?_
    split
    · exact hr.onEvent (.of_same fun v e => claimAt_holds v e _ _)
    · exact hr
  | release =>
    refine applyKind_slotsLawful h fun r o _ hr => ?_
    split
    · exact hr.onEvent (.of_same fun v e => releaseAt_holds v e _)
    · exact hr
  | setGain =>
    refine applyKind_slotsLawful h fun r o _ hr => ?_
    split
    · exact hr.onEvent (.of_mixer fun v e => setGainAt_mixer v e _ _ _ _)
    · exact hr
  | stopGlide =>
    refine applyKind_slotsLawful h fun r o _ hr => ?_
    split
    · exact hr.onEvent (.of_mixer fun v e => stopGlideAt_mixer v e _)
    · exact hr
  | setPhantom | setMode =>
    refine applyKind_slotsLawful h fun r o _ hr => ?_
    split
    · exact hr.onEvent (.of_same fun v e => requestAt_holds v e _ _)
    · exact hr
  | recheckFrontEnd =>
    refine applyKind_slotsLawful h fun r o _ hr => ?_
    split
    · exact hr.onEvent (.of_mixer fun v e => recheckAt_mixer v e _)
    · exact hr
  | readInput =>
    refine applyKind_slotsLawful h fun r o _ hr => ?_
    split
    · exact hr.onPattern fun k => LawfulFor.clearMark hr _ k
    · exact hr
  | readMarks | keepalive | setTiming | readSystemStatus | clearSupply | controlReset =>
    refine applyKind_slotsLawful h fun r o _ hr => ?_
    split
    · exact LawfulFor.gather hr _
    · exact hr
  | clearMarks =>
    refine applyKind_slotsLawful h fun r o _ hr => ?_
    split
    · exact hr.onPattern fun k => hr.clearMark _ k
    · exact hr
  | setNoticeEnables =>
    refine applyKind_slotsLawful h fun r o _ hr => ?_
    split
    · exact (hr.modSlot (recordKept_turnEnables ..)).gather _
    · exact hr
  | clearNotices =>
    refine applyKind_slotsLawful h fun r o _ hr => ?_
    split
    · exact (hr.modSlot (recordKept_clearNotices ..)).gather _
    · exact hr
  | configureInput =>
    refine applyKind_slotsLawful h fun r o _ hr => ?_
    split
    · exact hr.onEvent (.of_mixer fun v e => configureInputAt_mixer v e _)
    · exact hr
  | configureDesk =>
    refine applyKind_slotsLawful h fun r o _ hr => ?_
    split
    · exact hr.onDesk (hr.configureDeskOne _ _ _)
    · exact hr
  | openDesk =>
    refine applyKind_slotsLawful h fun r o _ hr => ?_
    split
    · exact hr.onDesk hr.openDeskOne
    · exact hr
  | closeDesk =>
    refine applyKind_slotsLawful h fun r o hsends hr => ?_
    split
    · exact hr.onDesk (hr.closeDeskOne (State.sends_run hsends) (slot_of_sends_system hsends rfl))
    · exact hr
  | readDesk =>
    refine applyKind_slotsLawful h fun r o _ hr => ?_
    split
    · exact hr.onDesk fun _ => hr
    · exact hr
  | _ => cases hi

/-! ### Every step -/

/-- Every command keeps the laws of the slots. -/
theorem exec_slotsLawful (h : s.SlotsLawful) (i : Instr) : NextSlotsLawful (exec i s) := by
  cases i with
  | writeBundle d bytes stray => exact execWriteBundle_slotsLawful h d bytes stray
  | readResponse d n => exact execReadResponse_slotsLawful h d n
  | readPortStatus n => exact execReadPortStatus_slotsLawful h n
  | setQueueThreshold d bytes => exact execSetQueueThreshold_slotsLawful h d bytes
  | ignoredTransaction cmd n => exact execIgnoredTransaction_slotsLawful h cmd n
  | bundleTake => exact execBundleTake_slotsLawful h
  | bundleEnd => exact execBundleEnd_slotsLawful h
  | powerOnReset => exact execPowerOnReset_slotsLawful
  | crstAssert => exact execCrstAssert_slotsLawful h
  | psagAssert => exact execPsagAssert_slotsLawful h
  | psagDeassert => exact nextSlotsLawful ((lawfulFor_system h).rest { s.sys with psag := false } ..)
  | frontEndAck k => exact execFrontEndAck_slotsLawful h k
  | writeFail k => exact atInput_slotsLawful h k (.of_same failAt_holds)
  | muteRampEnd k => exact atInput_slotsLawful h k (.of_same muteRampEndAt_holds)
  | settleTimerExpiry k => exact atInput_slotsLawful h k (.of_same fun _ _ => ite_holds rfl rfl)
  | unmuteRampEnd k => exact atInput_slotsLawful h k (.of_same unmuteRampEndAt_holds)
  | stepTimerExpiry k => exact atInput_slotsLawful h k (.of_mixer stepTimerAt_mixer)
  | clipIndication k => exact atInput_slotsLawful h k (.of_mixer clipAt_mixer)
  | windowExpiry k => exact atInput_slotsLawful h k (.of_same fun _ _ => ite_holds rfl rfl)
  | presenceTimerExpiry d => exact execPresenceTimerExpiry_slotsLawful h d
  | glideDonePulseEnd d => exact execGlideDonePulseEnd_slotsLawful h d
  | alignedChangeRelease d k n => exact setInp_slotsLawful h (modTap_holds ..)
  | converterSample k v => exact setInp_slotsLawful h (sample_holds ..)
  | unknownOperationKind => exact execUnknownOperationKind_slotsLawful h
  | _ => exact exec_operation_slotsLawful h rfl

end Commands

/-- Settles O56: one millisecond keeps the laws of the slots, and so does every command. -/
theorem slotsKept : Obligations.SlotsKept := by
  intro s t h
  unfold step
  split
  · exact nextSlotsLawful (lawfulFor_system h).tick t
  · exact exec_slotsLawful ((lawfulFor_system h).rest s.sys s.port s.freeCount _).1 _ t

end Sys2Proof.SlotProofs
end

section
/-! PROOFS. WRITE BUNDLE (R144): what no judgement changes, then the slot and the outcome at each judgement. -/

namespace Sys2Proof.FrameProofs

open Sys2Proof Sys2Proof.Machine Sys2Proof.GlideProofs

/-! ## The slot at an accepted and at a refused bundle -/

/-- A bundle accepted reloads the presence timer of a desk of 1..5 and opens it (R113, R115). -/
theorem accept_eq (d : Slot) (b : Bundle) (r : SlotRec) :
    r.accept d b = { r with
      requests := r.requests ++ [b]
      state := if d = 0 then r.state else .opened
      timer := if d = 0 then r.timer else some (1000 * r.timeout) } := by
  unfold SlotRec.accept
  by_cases hd : d = 0
  · simp only [hd, if_true]
  · simp only [hd, if_false]
    rfl

theorem refuse_eq {r : SlotRec} (h : r.state ≠ .closed) :
    r.refuse = { r with overrun := true, flags := { r.flags with overrun := true } } :=
  if_pos ((live_iff r).2 h)

/-! ## A frame judged -/

section Judged
variable (s : State) (d : Slot)

/-- A judgement changes the slot it names, the last-frame outcome and the error flag. -/
theorem judgeFrame_frame (b : Except FrameProblem Bundle) :
    let t := s.judgeFrame d b
    inputsKept s t ∧ otherSlotsKept d s t ∧ t.executor = s.executor ∧ t.sys = s.sys ∧
      t.freeCount = s.freeCount ∧ t.pending = s.pending ∧ t.port.sdo = s.port.sdo ∧
      t.port.lastSlot = BitVec.ofNat 3 d := by
  unfold State.judgeFrame
  dsimp only
  split
  · exact ⟨rfl, fun c hc => State.modSlot_slot_ne s _ hc, rfl, rfl, rfl, rfl, rfl, rfl⟩
  · exact ⟨rfl, fun c hc => State.modSlot_slot_ne s _ hc, rfl, rfl, rfl, rfl, rfl, rfl⟩
  · exact ⟨rfl, fun _ _ => rfl, rfl, rfl, rfl, rfl, rfl, rfl⟩

theorem judgeFrame_malformed (p : FrameProblem) :
    let t := s.judgeFrame d (.error p)
    t.slot d = s.slot d ∧ t.port.lastOutcome = .malformed ∧ t.port.error = true :=
  ⟨rfl, rfl, Bool.or_true _⟩

/-- Only a MALFORMED frame sets the last-frame error flag (R149). -/
theorem judgeFrame_error (b : Bundle) : (s.judgeFrame d (.ok b)).port.error = s.port.error := by
  have ho : (s.frameOutcome d (.ok b) == .malformed) = false := by
    unfold State.frameOutcome
    dsimp only
    split
    · rfl
    split
    · rfl
    · rfl
  unfold State.judgeFrame
  dsimp only
  rw [ho, Bool.or_false]
  split <;> rfl

variable {s d}

theorem judgeFrame_closed (h : (s.slot d).state = .closed) (b : Bundle) :
    let t := s.judgeFrame d (.ok b)
    t.slot d = s.slot d ∧ t.port.lastOutcome = .closed := by
  have ho : s.frameOutcome d (.ok b) = .closed := if_pos h
  unfold State.judgeFrame
  rw [ho]
  exact ⟨rfl, rfl⟩

theorem judgeFrame_full (h : (s.slot d).state ≠ .closed) (hfull : 8 ≤ (s.slot d).requests.length) (b : Bundle) :
    let t := s.judgeFrame d (.ok b)
    t.slot d = (s.slot d).refuse ∧ t.port.lastOutcome = .full := by
  have ho : s.frameOutcome d (.ok b) = .full := (if_neg h).trans (if_pos hfull)
  unfold State.judgeFrame
  rw [ho]
  exact ⟨State.modSlot_slot_self .., rfl⟩

theorem judgeFrame_accepted (h : (s.slot d).state ≠ .closed) (hroom : ¬ 8 ≤ (s.slot d).requests.length)
    (b : Bundle) :
    let t := s.judgeFrame d (.ok b)
    t.slot d = (s.slot d).accept d b ∧ t.port.lastOutcome = .accepted := by
  have ho : s.frameOutcome d (.ok b) = .accepted := (if_neg h).trans (if_neg hroom)
  unfold State.judgeFrame
  rw [ho]
  exact ⟨State.modSlot_slot_self .., rfl⟩

end Judged

/-- Settles O5: the judgements in their order are the cases of the frame's parse, of the slot's state and of its
queue's length. -/
theorem writeBundleJudged : Obligations.WriteBundleJudged := by
  intro s d bytes stray
  obtain ⟨hinputs, hslots, hexec, hsys, hfree, hpending, hsdo, hslot⟩ :=
    judgeFrame_frame (s.shiftOut (zeros bytes.length)) d (parseBundle bytes stray)
  refine ⟨_, rfl, hinputs, hslots, hexec, hsys, hfree, hpending, hsdo, hslot, ?_⟩
  cases parseBundle bytes stray with
  | error p => exact judgeFrame_malformed _ d p
  | ok b =>
    refine ⟨judgeFrame_error _ d b, ?_⟩
    by_cases hclosed : (s.slot d).state = .closed
    · rw [if_pos hclosed]
      exact judgeFrame_closed (s := s.shiftOut _) hclosed b
    rw [if_neg hclosed]
    by_cases hfull : 8 ≤ (s.slot d).requests.length
    · rw [if_pos hfull, ← refuse_eq hclosed]
      exact judgeFrame_full (s := s.shiftOut _) hclosed hfull b
    · rw [if_neg hfull, ← accept_eq]
      exact judgeFrame_accepted (s := s.shiftOut _) hclosed hfull b

end Sys2Proof.FrameProofs
end

section
/-! PROOFS. The desk operations on the slot they name (R108, R109, R126), and the images of READ MARKS, READ DESK
and READ SYSTEM STATUS (R112, R130, R133, R153). -/

namespace Sys2Proof.DeskProofs

open Sys2Proof Sys2Proof.Machine Sys2Proof.TapProofs Sys2Proof.QueueProofs

/-! ## The slot that a desk operation names -/

theorem namedSlot_ofNat (d : Slot) : namedSlot (BitVec.ofNat 3 d) = some d := by
  revert d
  decide

/-- Slot numbers 6 and 7 name no slot. -/
theorem namedSlot_eq_none {n : BitVec 3} (h : 6 ≤ n.toNat) : namedSlot n = none := dif_neg (Nat.not_lt.2 h)

section Next
variable {s : State} {r : Run}

theorem onDesk_of_named {n : BitVec 3} {d : Slot} (h : namedSlot n = some d) (one : Slot → State → Applied) :
    s.onDesk r n one = (one d s).state.gatherSingle r (one d s).code (one d s).image := by
  simp only [State.onDesk, h]

theorem onDesk_of_unnamed {n : BitVec 3} (h : namedSlot n = none) (one : Slot → State → Applied) :
    s.onDesk r n one = s.gather r (OpResult.whole .deskState) := by
  simp only [State.onDesk, h]

theorem exec_configureDesk {n : BitVec 3} {rank timeout : Option Byte} {perms : Option Perms}
    (hs : s.sends r (.configureDesk n rank perms timeout)) :
    exec .configureDesk s = .next (s.onDesk r n (configureDeskOne rank perms timeout)) :=
  congrArg Host.Outcome.next (State.applyKind_of_sends hs _)

theorem exec_openDesk {n : BitVec 3} (hs : s.sends r (.openDesk n)) :
    exec .openDesk s = .next (s.onDesk r n openDeskOne) :=
  congrArg Host.Outcome.next (State.applyKind_of_sends hs _)

theorem exec_closeDesk {n : BitVec 3} (hs : s.sends r (.closeDesk n)) :
    exec .closeDesk s = .next (s.onDesk r n closeDeskOne) :=
  congrArg Host.Outcome.next (State.applyKind_of_sends hs _)

theorem exec_readDesk {n : BitVec 3} (hs : s.sends r (.readDesk n)) :
    exec .readDesk s = .next (s.onDesk r n readDeskOne) :=
  congrArg Host.Outcome.next (State.applyKind_of_sends hs _)

end Next

/-! ## CONFIGURE DESK and OPEN DESK (R108, R109) -/

/-- A number setting is carried as it stands exactly where it is absent or in its range. -/
theorem carriedClamped_iff {lo hi : Nat} (h : lo ≤ hi) (b : Option Byte) :
    carriedClamped lo hi b = true ↔ ¬ ∀ v ∈ b, lo ≤ v.toNat ∧ v.toNat ≤ hi := by
  cases b with
  | none => simp [carriedClamped]
  | some v =>
    simp only [carriedClamped, clampNat, bne_iff_ne, ne_eq, Option.mem_some_iff, forall_eq']
    omega

section Desk
variable {s : State} {d : Slot}

theorem configureDeskOne_refused (h : d = 0 ∨ (s.slot d).state ≠ .closed) (rank timeout : Option Byte)
    (perms : Option Perms) : configureDeskOne rank perms timeout d s = ⟨s, .deskState, []⟩ :=
  if_neg fun ⟨hc, hd⟩ => h.elim hd fun hne => hne hc

theorem configureDeskOne_taken (h : ¬ (d = 0 ∨ (s.slot d).state ≠ .closed)) (rank timeout : Option Byte)
    (perms : Option Perms) :
    configureDeskOne rank perms timeout d s = ⟨s.modSlot d (SlotRec.configure rank perms timeout),
      if carriedClamped 1 7 rank || carriedClamped 1 60 timeout then .clamped else .done, []⟩ := by
  obtain ⟨hd, hc⟩ := not_or.1 h
  exact if_pos ⟨Decidable.not_not.1 hc, hd⟩

theorem openDeskOne_refused (h : d = 0 ∨ (s.slot d).state ≠ .closed) :
    openDeskOne d s = ⟨s, .deskState, []⟩ :=
  if_neg fun ⟨hc, hd⟩ => h.elim hd fun hne => hne hc

theorem openDeskOne_taken (h : ¬ (d = 0 ∨ (s.slot d).state ≠ .closed)) :
    openDeskOne d s = ⟨s.modSlot d fun r => { r.reload with state := .opened }, .done, []⟩ := by
  obtain ⟨hd, hc⟩ := not_or.1 h
  exact if_pos ⟨Decidable.not_not.1 hc, hd⟩

end Desk

/-- Settles O47: an operation on a named slot is refused or taken as the slot's state decides, and one on 6 or 7
is refused whole. -/
theorem deskConfiguredAndOpened : Obligations.DeskConfiguredAndOpened := by
  intro s r refused whole within kept
  refine ⟨?_, ?_, fun n hn => ?_⟩
  · intro d rank timeout perms hs q
    rw [exec_configureDesk hs, onDesk_of_named (namedSlot_ofNat d)]
    by_cases hd : d = 0 ∨ q.state ≠ .closed
    · rw [configureDeskOne_refused hd, if_pos hd]
      rfl
    · have hcode : (carriedClamped 1 7 rank || carriedClamped 1 60 timeout) = true ↔
          ¬ (kept 1 7 rank ∧ kept 1 60 timeout) := by
        rw [Bool.or_eq_true, carriedClamped_iff (by decide), carriedClamped_iff (by decide),
          Classical.not_and_iff_not_or_not]
      have hwithin lo hi old b : carried lo hi old b = within lo hi old b := by cases b <;> rfl
      rw [configureDeskOne_taken hd, if_neg hd, clampedIf_congr hcode, ite_not, ← hwithin, ← hwithin]
      split
      · rfl
      · rfl
  · intro d hs q
    rw [exec_openDesk hs, onDesk_of_named (namedSlot_ofNat d)]
    by_cases hd : d = 0 ∨ q.state ≠ .closed
    · rw [openDeskOne_refused hd, if_pos hd]
      rfl
    · rw [openDeskOne_taken hd, if_neg hd]
      rfl
  · have hwhole (one : Slot → State → Applied) : s.onDesk r n one = s.gather r whole :=
      onDesk_of_unnamed (namedSlot_eq_none hn) one
    refine ⟨fun rank perms timeout hs => ?_, fun hs => ?_, fun hs => ?_, fun hs => ?_⟩
    · rw [exec_configureDesk hs, hwhole]
    · rw [exec_openDesk hs, hwhole]
    · rw [exec_closeDesk hs, hwhole]
    · rw [exec_readDesk hs, hwhole]

/-! ## Sets of inputs (R153) -/

/-- The byte of a list of bits has the list's bit at each place. -/
theorem byteOfBits_getLsbD (bs : List Bool) {i : Nat} (hi : i < 8) :
    (byteOfBits bs).getLsbD i = bs[i]?.getD false := by
  have hbits (j : Nat) : (bs.foldr (fun (b : Bool) n => b.toNat + 2 * n) 0).testBit j = bs[j]?.getD false := by
    induction bs generalizing j with
    | nil => simp
    | cons b bs ih =>
      cases j with
      | zero => cases b <;> simp [Nat.testBit_zero]
      | succ j =>
        rw [List.foldr_cons, Nat.testBit_succ, List.getElem?_cons_succ, ← ih]
        congr 1
        have := Bool.toNat_lt b
        omega
  rw [byteOfBits, BitVec.getLsbD_ofNat, hbits, decide_eq_true hi, Bool.true_and]

/-- Byte `k / 8` of a set of inputs has at bit `k % 8` whether `k` is in it. -/
theorem setBytes_shows (p : Input → Bool) (k : Input) :
    ∃ b, (setBytes ((List.finRange 64).map p))[k.val / 8]? = some b ∧ b.getLsbD (k.val % 8) = p k := by
  have hbyte : k.val / 8 < 8 := by omega
  have hbit : k.val % 8 < 8 := Nat.mod_lt _ (by decide)
  refine ⟨_, by rw [setBytes, List.getElem?_map, List.getElem?_range hbyte]; rfl, ?_⟩
  rw [byteOfBits_getLsbD _ hbit, List.getElem?_take_of_lt hbit, List.getElem?_drop, Nat.div_add_mod,
    List.getElem?_map, List.getElem?_eq_getElem (by simp), List.getElem_finRange]
  rfl

/-- The records of a table in order. -/
theorem table_data {α : Type} {n : Nat} (t : Table α n) : t.data = (List.finRange n).map t.get := by
  apply List.ext_getElem
  · simp [t.size]
  · intro i h1 h2
    simp [Table.get]

theorem countP_data {α : Type} {n : Nat} (t : Table α n) (p : α → Bool) :
    t.data.countP p = ((List.finRange n).filter fun i => p (t.get i)).length := by
  rw [table_data, List.countP_map, List.countP_eq_length_filter]
  rfl

/-! ## Images taken whole -/

section Images
variable {s : State} {r : Run}

/-- An image taken by an operation that carries no pattern is its result, DONE. -/
theorem gatherSingle_image (s : State) (r : Run) (bs : List ImageByte) :
    (s.takeImage bs).1.gatherSingle r .done (s.takeImage bs).2 =
      State.gather { s with freeCount := s.freeCount + bs.length } r
        ⟨.done, 1, 1, 0, none, fillImage s.freeCount bs⟩ := rfl

theorem exec_readMarks (hs : s.sends r .readMarks) :
    exec .readMarks s = .next (State.gather { s with freeCount := s.freeCount + 11 } r
      ⟨.done, 1, 1, 0, none, fillImage s.freeCount (marksImage (s.slot r.slot))⟩) := by
  rw [← marksImage_length (s.slot r.slot), ← gatherSingle_image]
  exact congrArg Host.Outcome.next (State.applyKind_of_sends hs _)

theorem exec_readDesk_image {d : Slot} (hs : s.sends r (.readDesk (BitVec.ofNat 3 d))) :
    exec .readDesk s = .next (State.gather { s with freeCount := s.freeCount + 12 } r
      ⟨.done, 1, 1, 0, none, fillImage s.freeCount (deskImage s d)⟩) := by
  rw [exec_readDesk hs, onDesk_of_named (namedSlot_ofNat d)]
  rfl

theorem exec_readSystemStatus (hs : s.sends r .readSystemStatus) :
    exec .readSystemStatus s = .next (State.gather { s with freeCount := s.freeCount + 21 } r
      ⟨.done, 1, 1, 0, none, fillImage s.freeCount (statusImage s)⟩) := by
  rw [← statusImage_length s, ← gatherSingle_image]
  exact congrArg Host.Outcome.next (State.applyKind_of_sends hs _)

end Images

/-- A byte that stands in an image shows itself. -/
theorem shows_of_getElem? {bytes : List Byte} {i : Nat} {v : Byte} (h : bytes[i]? = some v) :
    shows bytes i 0xFF v := ⟨v, h, BitVec.and_allOnes⟩

/-- A set of inputs shows in the bytes of an image from `base` on. -/
def SetShown (image : List Byte) (base : Nat) (p : Input → Bool) : Prop :=
  ∀ k : Input, ∃ b, image[base + k.val / 8]? = some b ∧ b.getLsbD (k.val % 8) = p k

theorem setShown_of_append {image before after : List Byte} {base : Nat} {p : Input → Bool}
    (himage : image = before ++ (setBytes ((List.finRange 64).map p) ++ after)) (hbase : before.length = base) :
    SetShown image base p := by
  subst himage hbase
  intro k
  obtain ⟨b, hb, hp⟩ := setBytes_shows p k
  obtain ⟨hlt, -⟩ := List.getElem?_eq_some_iff.1 hb
  refine ⟨b, ?_, hp⟩
  rw [List.getElem?_append_right (Nat.le_add_right ..), Nat.add_sub_cancel_left,
    List.getElem?_append_left hlt, hb]

/-! ## READ MARKS (R133) -/

theorem noticeFlags_eq (r : SlotRec) : r.noticeFlags =
    ⟨r.responses != [], (List.finRange 64).any fun k => r.marks.get k, r.flags.ownership, r.flags.glideDone,
      r.flags.frontend, r.flags.overload, r.flags.overrun, r.flags.supply⟩ := by
  have hresponse : (!r.responses.isEmpty) = (r.responses != []) := by cases r.responses <;> rfl
  have hmarks : (r.markCount != 0) = (List.finRange 64).any fun k => r.marks.get k := by
    rw [SlotRec.markCount, countP_data, Bool.eq_iff_iff]
    simp [List.length_eq_zero_iff]
  rw [SlotRec.noticeFlags, hresponse, hmarks]

theorem fill_marksImage (n : Nat) (r : SlotRec) : fillImage n (marksImage r) =
    setBytes ((List.finRange 64).map r.marks.get) ++
      [byteOf r.markCount, r.noticeFlags.toByte, r.enables.toByte] := by
  rw [← table_data]
  exact fillImage_statedAll ..

theorem getElem?_setBytes_append (bs : List Bool) (after : List Byte) (i : Nat) :
    (setBytes bs ++ after)[8 + i]? = after[i]? := by
  rw [← setBytes_length bs, List.getElem?_append_right (Nat.le_add_right ..), Nat.add_sub_cancel_left]

/-! ## READ DESK (R112) -/

theorem perms_mask (p : Perms) : p.toByte &&& 0x0F = p.toByte := by
  obtain ⟨own, preempt, broadcast, observer⟩ := p
  revert own preempt broadcast observer
  decide

theorem stateCode_eq (q : DeskState) : byteOf q.code = match q with
    | .closed => 0
    | .opened => 1
    | .absent => 2 := by
  cases q <;> rfl

theorem overrun_mask (b : Bool) : fields [(b.toNat, 0)] &&& 0x01 = if b then 0x01 else 0 := by
  cases b <;> rfl

theorem queueCounts_eq (requests responses : Nat) :
    fields [(requests, 4), (responses, 0)] = BitVec.ofNat 8 (16 * requests + responses) := by
  unfold fields byteOf
  congr 1
  simp only [List.foldr]
  omega

theorem countInputs_eq (s : State) (p : Inp → Bool) :
    s.countInputs p = ((List.finRange 64).filter fun k => p (s.inp k)).length := countP_data ..

/-- The presence timer stands in bytes 5 and 6 of every image taken; 0xFFFF where there is none. -/
theorem fill_deskImage_timer (n : Nat) (s : State) (d : Slot) :
    ((fillImage n (deskImage s d)).drop 5).take 2 =
      bytesOf16 (BitVec.ofNat 16 (if d = 0 then 0xFFFF else (s.slot d).timer.getD 0xFFFF)) := rfl

theorem timeout_eq (d : Slot) (timeout : Nat) :
    byteOf (if d = 0 then 0 else timeout) = if d = 0 then 0 else BitVec.ofNat 8 timeout := by
  split <;> rfl

/-! ## READ SYSTEM STATUS (R130) -/

/-- The supply flag, PSAG and the strap in byte 0 of the status image. -/
def statusFlags (y : Sys) : Byte := fields [(y.supplyFlag.toNat, 0), (y.psag.toNat, 1), (y.rate96.toNat, 2)]

theorem statusFlags_supply (y : Sys) : statusFlags y &&& 0x01 = if y.supplyFlag then 0x01 else 0 := by
  unfold statusFlags
  cases y.supplyFlag <;> cases y.psag <;> cases y.rate96 <;> rfl

theorem statusFlags_psag (y : Sys) : statusFlags y &&& 0x02 = if y.psag then 0x02 else 0 := by
  unfold statusFlags
  cases y.supplyFlag <;> cases y.psag <;> cases y.rate96 <;> rfl

theorem statusFlags_rate96 (y : Sys) : statusFlags y &&& 0x04 = if y.rate96 then 0x04 else 0 := by
  unfold statusFlags
  cases y.supplyFlag <;> cases y.psag <;> cases y.rate96 <;> rfl

/-- The bytes of the status image behind the flags. -/
def statusSettings (s : State) : List Byte :=
  [byteOf s.sys.settle, byteOf s.sys.discharge, byteOf s.sys.align, byteOf s.executor.resetCount]

theorem statusImage_eq (s : State) : statusImage s = partly 0x07 (statusFlags s.sys) ::
    statedAll (statusSettings s ++ (setBytes ((List.finRange 64).map fun k => (s.inp k).fault) ++
      setBytes ((List.finRange 64).map fun k => (s.inp k).seq == .halted))) := by
  rw [statusImage, table_data s.inputs, List.map_map, List.map_map, List.append_assoc]
  rfl

/-- What stands behind the flags in every status image taken. -/
theorem fill_statusImage (n : Nat) (s : State) : ∃ b, fillImage n (statusImage s) = b :: statusSettings s ++
    (setBytes ((List.finRange 64).map fun k => (s.inp k).fault) ++
      setBytes ((List.finRange 64).map fun k => (s.inp k).seq == .halted)) := by
  rw [statusImage_eq]
  exact ⟨_, congrArg (_ :: ·) (fillImage_statedAll ..)⟩

/-- Settles O45: each field is one stated byte or part of one, and the sets of inputs are whole bytes. -/
theorem readImagesShowRecords : Obligations.ReadImagesShowRecords := by
  intro s r flag inputs setShown
  refine ⟨fun hs => ?_, fun d hs => ?_, fun hs => ?_⟩
  · refine ⟨_, exec_readMarks hs, ?_⟩
    rw [fill_marksImage, noticeFlags_eq, SlotRec.markCount, countP_data]
    refine ⟨by simp [setBytes_length], ?_, ?_, ?_, ?_⟩
    · exact setShown_of_append (before := []) rfl rfl
    · exact shows_of_getElem? (getElem?_setBytes_append _ _ 0)
    · exact shows_of_getElem? (getElem?_setBytes_append _ _ 1)
    · exact shows_of_getElem? (getElem?_setBytes_append _ _ 2)
  · have shown {i : Nat} {u v : Byte} (hb : (deskImage s d)[i]? = some ⟨0xFF, u⟩) (hu : u = v) :
        shows (fillImage s.freeCount (deskImage s d)) i 0xFF v := hu ▸ fillImage_shows_stated hb _
    have hcount (p : Inp → Bool) : byteOf (s.countInputs p) = BitVec.ofNat 8 (inputs p) :=
      congrArg (BitVec.ofNat 8) (countInputs_eq s p)
    exact ⟨_, exec_readDesk_image hs, fillImage_length .., shown rfl rfl, shown rfl (stateCode_eq _),
      shown rfl rfl, fillImage_shows (mask := 0x0F) rfl (by decide) (perms_mask _) _,
      shown rfl (timeout_eq ..), fill_deskImage_timer .., shown rfl (hcount _), shown rfl (hcount _),
      shown rfl (hcount _), shown rfl (queueCounts_eq ..),
      fillImage_shows (mask := 0x01) rfl (by decide) (overrun_mask _) _⟩
  · have flags {m v : Byte} (hm : m &&& 0x07 = m) (hv : statusFlags s.sys &&& m = v) :
        shows (fillImage s.freeCount (statusImage s)) 0 m v :=
      fillImage_shows (congrArg (·[0]?) (statusImage_eq s)) hm hv _
    obtain ⟨b, hb⟩ := fill_statusImage s.freeCount s
    refine ⟨_, exec_readSystemStatus hs, (fillImage_length ..).trans (statusImage_length s),
      flags (by decide) (statusFlags_supply _), flags (by decide) (statusFlags_psag _),
      flags (by decide) (statusFlags_rate96 _), ?_⟩
    rw [hb]
    refine ⟨shows_of_getElem? rfl, shows_of_getElem? rfl, shows_of_getElem? rfl, shows_of_getElem? rfl, ?_, ?_⟩
    · exact setShown_of_append (before := b :: statusSettings s) rfl rfl
    · refine setShown_of_append (after := [])
        (before := b :: statusSettings s ++ setBytes ((List.finRange 64).map fun k => (s.inp k).fault)) ?_ ?_
      · rw [List.append_nil, List.append_assoc]
      · rw [List.length_append, setBytes_length]
        rfl

end Sys2Proof.DeskProofs
end

section
/-! PROOFS. The bundle executor: the answers of every command (R121, R125), BUNDLE TAKE (R120), the checks before
an operation (R124, R125), what a pattern matches (R123) and how results are formed (R126 to R128). -/

namespace Sys2Proof.ExecutorProofs

open Sys2Proof Sys2Proof.Machine Sys2Proof.GlideProofs Sys2Proof.QueueProofs
  Sys2Proof.FrameProofs

/-! ## The front of the queue -/

/-- Settles O1: the second branch of `step`. -/
theorem stepRunsFrontCommand : Obligations.StepRunsFrontCommand := by
  intro s c rest h
  simp only [step, h]

/-! ## Operations and their commands (R121, R125) -/

/-- The commands that apply an operation of a bundle. -/
def operationCommands : List Instr :=
  [.openTap, .closeTap, .setLevel, .setTapMute, .readTap, .claim, .release, .setGain, .stopGlide, .setPhantom,
    .setMode, .recheckFrontEnd, .readInput, .readMarks, .clearMarks, .setNoticeEnables, .clearNotices,
    .keepalive, .configureInput, .configureDesk, .openDesk, .closeDesk, .readDesk, .setTiming,
    .readSystemStatus, .clearSupply, .controlReset]

/-- The command that applies operations of a kind. -/
def commandOf (kind : Byte) : Option Instr := operationCommands.find? fun i => commandKind i == some kind

/-- A command that applies operations of a kind is the only one for it. -/
theorem commandOf_kind {i : Instr} {kind : Byte} (h : commandKind i = some kind) :
    commandOf kind = some i := by
  cases i <;> cases h <;> rfl

/-- A command that applies operations of a kind is the executor's step for that kind. -/
theorem exec_of_commandKind (s : State) {i : Instr} {kind : Byte} (h : commandKind i = some kind) :
    ∃ body, exec i s = .next (s.applyKind kind body) := by
  cases i <;> cases h <;> exact ⟨_, rfl⟩

section Checks
variable {s : State} {r : Run} {c : OpRec}

/-- The executor has no step of a kind that its next operation is not (log entry 8). -/
theorem applyKind_of_ne (h : s.nextRecord = some (r, c)) {kind : Byte} (hk : kind ≠ c.kind)
    (body : Run → Op → State) : s.applyKind kind body = s := by
  simp only [State.applyKind, h, if_neg hk.symm]

theorem applyKind_of_badOp (h : s.nextRecord = some (r, c)) (hd : decodeOp c = none)
    (body : Run → Op → State) : s.applyKind c.kind body = s.gather r (OpResult.whole .badOp) := by
  simp only [State.applyKind, h, if_true, hd]

theorem applyKind_of_denied (h : s.nextRecord = some (r, c)) {o : Op} (hd : decodeOp c = some o)
    (ho : o.systemOnly = true) (hr : r.slot ≠ 0) (body : Run → Op → State) :
    s.applyKind c.kind body = s.gather r (OpResult.whole .denied) := by
  have hdenied : (o.systemOnly && r.slot != 0) = true := by simp [ho, hr]
  simp only [State.applyKind, h, if_true, hd, hdenied]

/-- Settles O18: the checks of `State.applyKind`, which stand before every operation. -/
theorem operationsChecked : Obligations.OperationsChecked := by
  intro s r c h
  refine ⟨fun hk => ?_, fun i hi => ?_, fun i q hi hq => ?_⟩
  · show execUnknownOperationKind s = _
    simp only [execUnknownOperationKind, h, hk]
    rfl
  · obtain ⟨body, hbody⟩ := exec_of_commandKind s hi
    rw [hbody]
    exact ⟨fun hd => congrArg _ (applyKind_of_badOp h hd body),
      fun o hd ho hr => congrArg _ (applyKind_of_denied h hd ho hr body)⟩
  · obtain ⟨body, hbody⟩ := exec_of_commandKind s hi
    rw [hbody, applyKind_of_ne h hq]

end Checks

/-! ## The checks at a pattern (R124) -/

section Patterns
variable {s : State} {r : Run} {o : Op} {p : Pattern} {exact : Bool}

/-- An operation that carries a pattern is applied to the inputs that the pattern matches. -/
theorem exec_of_opPattern {i : Instr} (hs : s.sends r o) (ho : opPattern o = some (p, exact))
    (hi : commandKind i = some o.kind) : ∃ one, exec i s = .next (s.onPattern r p exact one) := by
  have hcommand : commandOf o.kind = some i := commandOf_kind hi
  have happly (body) :=
    congrArg (Host.Outcome.next (φ := Fault) (ρ := Refusal)) (State.applyKind_of_sends hs body)
  cases o <;> cases ho
  all_goals
    obtain rfl := Option.some.inj hcommand
    exact ⟨_, happly _⟩

/-- A pattern that its check refuses refuses the whole operation. -/
theorem onPattern_of_refused (hr : r.progress = none) {c : ResultCode}
    (h : s.checkPattern r.slot p exact = .error c) (one : Input → State → Applied) :
    s.onPattern r p exact one = s.gather r (OpResult.whole c) := by
  simp only [State.onPattern, hr, h]

theorem checkPattern_badPattern (d : Slot) (he : exact = true) (hp : p.mask ≠ 0) :
    s.checkPattern d p exact = .error .badPattern := by
  have hbad : (exact && p.mask != 0) = true := by simpa [he] using hp
  exact if_pos hbad

/-- Past the first check. -/
theorem checkPattern_of_fits (d : Slot) (h : exact = true → p.mask = 0) :
    s.checkPattern d p exact =
      if matchesAll p && !(s.slot d).perms.broadcast then .error .denied
      else if (s.expand p).isEmpty then .error .noMatch
      else .ok (s.expand p) := by
  have hfits : ¬ (exact && p.mask != 0) = true := by simpa using h
  exact if_neg hfits

theorem matchesAll_iff (p : Pattern) : matchesAll p = true ↔ p.mask = 63 := beq_iff_eq

/-- Past the first two checks. -/
theorem checkPattern_of_allowed (d : Slot) (h : exact = true → p.mask = 0)
    (hall : p.mask = 63 → (s.slot d).perms.broadcast = true) :
    s.checkPattern d p exact =
      if (s.expand p).isEmpty then .error .noMatch else .ok (s.expand p) := by
  have hallowed : ¬ (matchesAll p && !(s.slot d).perms.broadcast) = true := by
    simpa [matchesAll_iff] using hall
  rw [checkPattern_of_fits d h, if_neg hallowed]

end Patterns

/-- Settles O19: the three checks of `State.checkPattern` in their order. -/
theorem patternsChecked : Obligations.PatternsChecked := by
  intro s r o p exact i hs ho hi hr
  obtain ⟨one, hone⟩ := exec_of_opPattern hs ho hi
  have hrefused {c : ResultCode} (h : s.checkPattern r.slot p exact = .error c) :
      Machine.exec i s = .next (s.gather r (OpResult.whole c)) := by
    rw [hone, onPattern_of_refused hr h]
  refine ⟨fun he hp => ?_, fun hfits hall hb => ?_, fun hfits hall hnone => ?_, fun hfits hall k rest hks => ?_⟩
  · exact hrefused (checkPattern_badPattern r.slot he hp)
  · refine hrefused ?_
    rw [checkPattern_of_fits r.slot hfits, (matchesAll_iff p).2 hall, hb]
    rfl
  · refine hrefused ?_
    rw [checkPattern_of_allowed r.slot hfits hall, hnone]
    rfl
  · refine .inr ⟨hr, rfl, ?_⟩
    rw [checkPattern_of_allowed r.slot hfits hall, hks]
    rfl

/-! ## What a pattern matches (R123) -/

theorem patternMatches_iff (p : Pattern) (k : Input) : patternMatches p k = true ↔
    ∀ i, i < 6 → p.mask.getLsbD i = false → k.val.testBit i = p.base.getLsbD i := by
  have hbit (i : Nat) (hi : i < 6) :
      ((BitVec.ofNat 6 k.val ^^^ p.base) &&& ~~~p.mask).getLsbD i =
        ((k.val.testBit i ^^ p.base.getLsbD i) && !p.mask.getLsbD i) := by
    simp [hi]
  rw [patternMatches, beq_iff_eq, BitVec.eq_of_getLsbD_eq_iff]
  refine forall₂_congr fun i hi => ?_
  rw [hbit i hi, show (0 : BitVec 6).getLsbD i = false from BitVec.getLsbD_zero]
  cases p.mask.getLsbD i <;> simp

/-- Settles O20: `State.expand` filters the inputs in ascending order. -/
theorem patternMatches : Obligations.PatternMatches := by
  intro s p
  refine ⟨fun k => ?_, (List.pairwise_lt_finRange 64).filter _⟩
  rw [State.expand, List.mem_filter, and_iff_right (List.mem_finRange k), Bool.and_eq_true, patternMatches_iff,
    Bool.or_eq_true, beq_iff_eq, Bool.not_eq_true']
  exact and_congr_right fun _ => Decidable.or_iff_not_imp_left

/-! ## Results (R126 to R128) -/

/-- The codes that are refusals (R127). -/
theorem refusal_eq (c : ResultCode) : c.refusal =
    [ResultCode.noTap, .tapOpen, .notOwner, .denied, .busy, .locked, .phantomOn, .modeConflict,
      .supply, .fault, .deskState, .noMatch, .badPattern, .badOp].contains c := by
  cases c <;> rfl

/-- The first of CLAMPED, PENDING and QUEUED that occurred, else DONE (R128). -/
theorem appliedCode_cases (cs : List ResultCode) :
    (.clamped ∈ cs → appliedCode cs = .clamped) ∧
    (.clamped ∉ cs → .pending ∈ cs → appliedCode cs = .pending) ∧
    (.clamped ∉ cs → .pending ∉ cs → .queued ∈ cs → appliedCode cs = .queued) ∧
    (.clamped ∉ cs → .pending ∉ cs → .queued ∉ cs → appliedCode cs = .done) := by
  simp only [appliedCode, List.contains_iff_mem]
  refine ⟨fun hc => if_pos hc, fun hc hp => ?_, fun hc hp hq => ?_, fun hc hp hq => ?_⟩
  · rw [if_neg hc, if_pos hp]
  · rw [if_neg hc, if_neg hp, if_pos hq]
  · rw [if_neg hc, if_neg hp, if_neg hq]

/-- The first refusal gives the code and the input (R128). -/
theorem summary_of_refused {results : List (Input × ResultCode)} {q : Input × ResultCode}
    {more : List (Input × ResultCode)} (h : results.filter (fun x => x.2.refusal) = q :: more)
    (image : List Byte) :
    (OpResult.summary results image).first = some q.1 ∧ (OpResult.summary results image).code = q.2 := by
  simp [OpResult.summary, h]

/-- With no refusal the codes applied give the code (R128). -/
theorem summary_of_applied {results : List (Input × ResultCode)}
    (h : results.filter (fun x => x.2.refusal) = []) (image : List Byte) :
    (OpResult.summary results image).first = none ∧
    (OpResult.summary results image).code = appliedCode (results.map Prod.snd) := by
  simp [OpResult.summary, h]

/-- Settles O21: the result is that of the first refusal, or of the codes applied where there is none. -/
theorem resultSummarised : Obligations.ResultSummarised := by
  refine ⟨fun results image => ?_, fun s r q => rfl, fun s r k past c image => ⟨rfl, fun j more => rfl⟩⟩
  intro x refused codes
  have hrefused : results.filter (fun q => q.2.refusal) = refused :=
    List.filter_congr fun q _ => refusal_eq q.2
  have hcount : x.refused = refused.length := congrArg List.length hrefused
  have hsum : x.applied + x.refused = x.matched := Nat.sub_add_cancel (List.length_filter_le ..)
  refine ⟨rfl, hcount, hsum, rfl, fun k c hfirst => ?_, fun hnone => ?_⟩
  · obtain ⟨more, hmore⟩ := List.head?_eq_some_iff.1 hfirst
    exact summary_of_refused (hrefused.trans hmore) image
  · obtain ⟨hfirst, hcode⟩ := summary_of_applied (hrefused.trans hnone) image
    rw [hcode]
    exact ⟨hfirst, appliedCode_cases codes⟩

/-! ## BUNDLE TAKE (R120) -/

/-- How many places slot `d` of 1..5 stands behind the pointer. -/
def turnAfter (pointer d : Slot) : Nat := (d.val + 4 - pointer.val) % 5

/-- The slots 1..5 are visited in the order of their turns. -/
theorem visitOrder_turns (pointer : Slot) :
    (∀ d, d ∈ visitOrder pointer ↔ d ≠ 0) ∧
    (visitOrder pointer).Pairwise (fun e d => turnAfter pointer e < turnAfter pointer d) := by
  revert pointer
  decide

section Take
variable {s : State} {d : Slot}

/-- The first takeable slot in turn is found. -/
theorem find_takeable (hd : d ≠ 0) (htake : s.takeable d = true)
    (hfirst : ∀ e, e ≠ 0 → s.takeable e = true →
      turnAfter s.executor.pointer d ≤ turnAfter s.executor.pointer e) :
    (visitOrder s.executor.pointer).find? s.takeable = some d := by
  obtain ⟨hmem, hturns⟩ := visitOrder_turns s.executor.pointer
  obtain ⟨before, behind, hsplit⟩ := List.append_of_mem ((hmem d).2 hd)
  refine List.find?_eq_some_iff_append.2 ⟨htake, before, behind, hsplit, fun e he => ?_⟩
  have hnonzero : e ≠ 0 := (hmem e).1 (hsplit ▸ List.mem_append_left _ he)
  obtain ⟨-, -, hacross⟩ := List.pairwise_append.1 (hsplit ▸ hturns)
  have hturn := hacross e he d List.mem_cons_self
  have hearly : s.takeable e = false :=
    Bool.eq_false_iff.2 fun h => Nat.not_le.2 hturn (hfirst e hnonzero h)
  rw [hearly]
  rfl

/-- The slot that the executor chooses (R120). -/
theorem chosen_eq (htake : s.takeable d = true) (hfirst : d ≠ 0 → s.takeable 0 = false ∧
      ∀ e, e ≠ 0 → s.takeable e = true → turnAfter s.executor.pointer d ≤ turnAfter s.executor.pointer e) :
    s.chosen = some d := by
  by_cases hd : d = 0
  · subst hd
    exact if_pos htake
  · obtain ⟨hsystem, hturn⟩ := hfirst hd
    rw [State.chosen, hsystem]
    exact find_takeable hd htake hturn

theorem takeBundle_eq {b : Bundle} {more : List Bundle} (h : (s.slot d).requests = b :: more) :
    s.takeBundle d = { s with
      slots := s.slots.set d { s.slot d with requests := more }
      executor := { s.executor with
        run := some ⟨d, b.tag, b.ops, 0, [], none⟩
        pointer := if d = 0 then s.executor.pointer else d } } := by
  simp only [State.takeBundle, h]
  rfl

/-- While APPLYING, or with no slot chosen, BUNDLE TAKE does nothing. -/
theorem exec_bundleTake_idle (h : s.executor.run.isSome = true ∨ s.chosen = none) :
    exec .bundleTake s = .next s := by
  show execBundleTake s = _
  rcases h with hrun | hchosen
  · obtain ⟨r, hr⟩ := Option.isSome_iff_exists.1 hrun
    simp only [execBundleTake, hr]
  · cases hr : s.executor.run <;> simp only [execBundleTake, hr, hchosen]

theorem exec_bundleTake_chosen (hr : s.executor.run = none) (h : s.chosen = some d) :
    exec .bundleTake s = .next (s.takeBundle d) := by
  show execBundleTake s = _
  simp only [execBundleTake, hr, h]

end Take

/-- Settles O15: the slot chosen is the first takeable one in the order of the turns. -/
theorem bundleTakeArbitrates : Obligations.BundleTakeArbitrates := by
  intro s takeable turn
  have hiff (e : Slot) : s.takeable e = true ↔ takeable e := takeable_iff s e
  refine ⟨fun h => exec_bundleTake_idle (h.imp_right fun hnone => ?_), fun d b more hr htake hfirst hreq => ?_⟩
  · exact Option.eq_none_iff_forall_ne_some.2 fun e he => hnone e ((hiff e).1 (chosen_takeable he))
  · have hchosen : s.chosen = some d := by
      refine chosen_eq ((hiff d).2 htake) fun hd => ?_
      obtain ⟨hsystem, hturn⟩ := hfirst hd
      exact ⟨Bool.eq_false_iff.2 fun h => hsystem ((hiff 0).1 h), fun e he h => hturn e he ((hiff e).1 h)⟩
    rw [exec_bundleTake_chosen hr hchosen, takeBundle_eq hreq]

/-! ## The queue of commands (R121; log entry 22) -/

/-- The outcome is a next state with the same queue of commands. -/
def KeepsQueue (s : State) (o : Host.Outcome State Fault Refusal) : Prop :=
  ∃ t, o = .next t ∧ t.pending = s.pending

section Queue
variable {s : State}

theorem keepsQueue_next {t : State} (h : t.pending = s.pending) : KeepsQueue s (.next t) := ⟨t, rfl, h⟩

theorem keepsQueue_atInput (k : Input) (f : Env → Ev → Ev) : KeepsQueue s (.next (s.atInput k f)) :=
  keepsQueue_next (State.atInput_pending s k f)

theorem keepsQueue_applyKind {kind : Byte} {body : Run → Op → State}
    (h : ∀ r o, (body r o).pending = s.pending) : KeepsQueue s (.next (s.applyKind kind body)) :=
  keepsQueue_next (State.applyKind_kept (P := fun t => t.pending = s.pending) kind rfl (fun _ _ ht => ht)
    fun r o _ => h r o)

theorem onPattern_pending (r : Run) (p : Pattern) (exact : Bool) {one : Input → State → Applied}
    (h : ∀ k, (one k s).state.pending = s.pending) : (s.onPattern r p exact one).pending = s.pending :=
  State.onPattern_kept (P := fun t => t.pending = s.pending) p exact rfl (fun _ _ ht => ht) h

theorem onEvent_pending (r : Run) (p : Pattern) (exact : Bool) (f : Env → Ev → Ev) :
    (s.onPattern r p exact (applyEvent f)).pending = s.pending :=
  onPattern_pending r p exact fun k => State.atInput_pending s k f

theorem onDesk_pending (r : Run) (d : BitVec 3) {one : Slot → State → Applied}
    (h : ∀ c, (one c s).state.pending = s.pending) : (s.onDesk r d one).pending = s.pending := by
  unfold State.onDesk
  split
  · rfl
  · exact h _

theorem closeTapOne_pending (d : Slot) (k : Input) : (closeTapOne d k s).state.pending = s.pending := by
  have hclosed := State.commit_pending s k (s.evAt k (closeTapAt d))
  unfold closeTapOne
  dsimp only
  split
  · exact (State.modSlot_pending ..).trans hclosed
  · exact hclosed

theorem readTapOne_pending (d : Slot) (k : Input) : (readTapOne d k s).state.pending = s.pending := by
  unfold readTapOne
  split <;> rfl

theorem configureDeskOne_pending (rank timeout : Option Byte) (perms : Option Perms) (d : Slot) :
    (configureDeskOne rank perms timeout d s).state.pending = s.pending := by
  unfold configureDeskOne
  split <;> rfl

theorem openDeskOne_pending (d : Slot) : (openDeskOne d s).state.pending = s.pending := by
  unfold openDeskOne
  split <;> rfl

theorem closeDeskOne_pending (d : Slot) : (closeDeskOne d s).state.pending = s.pending := by
  unfold closeDeskOne
  split
  · rfl
  split
  · rfl
  · exact (State.modSlot_pending ..).trans (State.atInputs_pending ..)

/-- No operation of a bundle reaches the queue: neither its applications to inputs and slots nor the gathering of
its result. -/
theorem exec_operation_keepsQueue {i : Instr} {kind : Byte} (hi : commandKind i = some kind) :
    KeepsQueue s (exec i s) := by
  cases i with
  | openTap | setLevel | setTapMute | claim | release | setGain | stopGlide | setPhantom | setMode
  | recheckFrontEnd | configureInput =>
    refine keepsQueue_applyKind fun r o => ?_
    split
    · exact onEvent_pending ..
    · rfl
  | closeTap =>
    refine keepsQueue_applyKind fun r o => ?_
    split
    · exact onPattern_pending _ _ _ (closeTapOne_pending r.slot)
    · rfl
  | readTap =>
    refine keepsQueue_applyKind fun r o => ?_
    split
    · exact onPattern_pending _ _ _ (readTapOne_pending r.slot)
    · rfl
  | readInput | clearMarks =>
    refine keepsQueue_applyKind fun r o => ?_
    split
    · exact onPattern_pending _ _ _ fun _ => rfl
    · rfl
  | configureDesk =>
    refine keepsQueue_applyKind fun r o => ?_
    split
    · exact onDesk_pending _ _ (configureDeskOne_pending _ _ _)
    · rfl
  | openDesk =>
    refine keepsQueue_applyKind fun r o => ?_
    split
    · exact onDesk_pending _ _ openDeskOne_pending
    · rfl
  | closeDesk =>
    refine keepsQueue_applyKind fun r o => ?_
    split
    · exact onDesk_pending _ _ closeDeskOne_pending
    · rfl
  | readDesk =>
    refine keepsQueue_applyKind fun r o => ?_
    split
    · exact onDesk_pending _ _ fun _ => rfl
    · rfl
  | readMarks | setNoticeEnables | clearNotices | keepalive | setTiming | readSystemStatus | clearSupply
  | controlReset =>
    refine keepsQueue_applyKind fun r o => ?_
    split <;> rfl
  | _ => cases hi

/-! ### Bundles, pins and the control port -/

theorem controlReset_pending (s : State) : s.controlReset.pending = s.pending := rfl

theorem endBundle_pending (s : State) (r : Run) : (s.endBundle r).pending = s.pending := by
  have hvisited : ((respond s r).atInputs Inp.bundleGlide bundleEndAt).pending = s.pending :=
    (State.atInputs_pending ..).trans (State.modSlot_pending ..)
  rw [State.endBundle, State.setRun_pending]
  split
  · exact (controlReset_pending _).trans hvisited
  · exact hvisited

theorem execBundleTake_keepsQueue : KeepsQueue s (execBundleTake s) := by
  refine keepsQueue_next ?_
  split
  · unfold State.takeBundle
    split <;> rfl
  · rfl

theorem execBundleEnd_keepsQueue : KeepsQueue s (execBundleEnd s) := by
  refine keepsQueue_next ?_
  split
  · split
    · exact endBundle_pending ..
    · rfl
  · rfl

theorem execUnknownOperationKind_keepsQueue : KeepsQueue s (execUnknownOperationKind s) := by
  refine keepsQueue_next ?_
  split
  · split <;> rfl
  · rfl

theorem execWriteBundle_keepsQueue (d : Slot) (bytes : List Byte) (stray : Fin 8) :
    KeepsQueue s (execWriteBundle d bytes stray s) := by
  obtain ⟨-, -, -, -, -, hpending, -, -⟩ :=
    judgeFrame_frame (s.shiftOut (zeros bytes.length)) d (parseBundle bytes stray)
  exact keepsQueue_next hpending

theorem execReadResponse_keepsQueue (d : Slot) (n : Nat) : KeepsQueue s (execReadResponse d n s) := by
  refine keepsQueue_next ?_
  split <;> rfl

theorem execSetQueueThreshold_keepsQueue (d : Slot) (bytes : List Byte) :
    KeepsQueue s (execSetQueueThreshold d bytes s) := by
  refine keepsQueue_next ?_
  split
  · rfl
  · split <;> rfl

theorem execIgnoredTransaction_keepsQueue (cmd : Option Byte) (n : Nat) :
    KeepsQueue s (execIgnoredTransaction cmd n s) := by
  refine keepsQueue_next ?_
  split
  · rfl
  · split
    · dsimp only
      split <;> rfl
    · rfl

theorem execCrstAssert_keepsQueue : KeepsQueue s (execCrstAssert s) := by
  refine keepsQueue_next ?_
  split <;> rfl

theorem execPsagAssert_keepsQueue : KeepsQueue s (execPsagAssert s) := by
  refine keepsQueue_next ?_
  split <;> rfl

theorem execFrontEndAck_keepsQueue (k : Input) : KeepsQueue s (execFrontEndAck k s) := by
  refine keepsQueue_next ?_
  split
  · exact State.ackJudged_pending s k
  · rw [State.atInput_pending, State.ackJudged_pending]

theorem execPresenceTimerExpiry_keepsQueue (d : Slot) : KeepsQueue s (execPresenceTimerExpiry d s) := by
  refine keepsQueue_next ?_
  split
  · exact (State.modSlot_pending ..).trans (State.atInputs_pending ..)
  · rfl

theorem execGlideDonePulseEnd_keepsQueue (d : Slot) : KeepsQueue s (execGlideDonePulseEnd d s) := by
  refine keepsQueue_next ?_
  split <;> rfl

end Queue

/-- Settles O3: no arm of `exec` answers anything else, and none reaches the queue. -/
theorem everyCommandAnswersNext : Obligations.EveryCommandAnswersNext := by
  intro i s
  cases i with
  | writeBundle d bytes stray => exact execWriteBundle_keepsQueue d bytes stray
  | readResponse d n => exact execReadResponse_keepsQueue d n
  | readPortStatus n => exact keepsQueue_next rfl
  | setQueueThreshold d bytes => exact execSetQueueThreshold_keepsQueue d bytes
  | ignoredTransaction cmd n => exact execIgnoredTransaction_keepsQueue cmd n
  | bundleTake => exact execBundleTake_keepsQueue
  | bundleEnd => exact execBundleEnd_keepsQueue
  | powerOnReset | psagDeassert | alignedChangeRelease | converterSample => exact keepsQueue_next rfl
  | crstAssert => exact execCrstAssert_keepsQueue
  | psagAssert => exact execPsagAssert_keepsQueue
  | frontEndAck k => exact execFrontEndAck_keepsQueue k
  | writeFail k | muteRampEnd k | settleTimerExpiry k | unmuteRampEnd k | stepTimerExpiry k | clipIndication k
  | windowExpiry k => exact keepsQueue_atInput k _
  | presenceTimerExpiry d => exact execPresenceTimerExpiry_keepsQueue d
  | glideDonePulseEnd d => exact execGlideDonePulseEnd_keepsQueue d
  | unknownOperationKind => exact execUnknownOperationKind_keepsQueue
  | _ => exact exec_operation_keepsQueue rfl

end Sys2Proof.ExecutorProofs
end

section
/-! PROOFS. Operation records (R125, R151): the codes of each field are read back, then each operation; and the
layout of a response (R152). -/

namespace Sys2Proof.RecordProofs

open Sys2Proof Sys2Proof.Machine Sys2Proof.DeskProofs

/-! ## Fields read back (R151) -/

@[simp] theorem bit_byteOfBits (bs : List Bool) {i : Nat} (hi : i < 8) :
    bit (byteOfBits bs) i = bs[i]?.getD false := byteOfBits_getLsbD bs hi

@[simp] theorem pattern_ofBytes_toBytes (p : Pattern) :
    Pattern.ofBytes (p.base.setWidth 8) (p.mask.setWidth 8) = p := by
  simp [Pattern.ofBytes]

@[simp] theorem present_byteOr (b : Option Byte) : present b.isSome (byteOr b) = b := by
  cases b <;> rfl

@[simp] theorem present_getD {α : Type} (b : Option α) (x : α) : present b.isSome (b.getD x) = b := by
  cases b <;> rfl

/-- A number of 16 bits from its two bytes: the library's lemma at width 8 + 8, which `simp` does not read as 16. -/
@[simp] theorem bytes_append (v : BitVec 16) : v.extractLsb' 8 8 ++ v.extractLsb' 0 8 = v :=
  BitVec.extractLsb'_append_extractLsb'

@[simp] theorem onOfCode_onCode (on : Bool) : onOfCode (onCode on) = some on := by
  cases on <;> rfl

@[simp] theorem mode_ofCode_code (m : Mode) : Mode.ofCode (BitVec.ofNat 8 m.code) = some m := by
  cases m <;> rfl

@[simp] theorem policy_ofCode_code (q : Policy) : Policy.ofCode (BitVec.ofNat 8 q.code) = some q := by
  cases q <;> rfl

@[simp] theorem noticeSet_ofByte_toByte (n : NoticeSet) : NoticeSet.ofByte n.toByte = n := by
  simp [NoticeSet.ofByte, NoticeSet.toByte]

@[simp] theorem perms_ofByte_toByte (p : Perms) : Perms.ofByte p.toByte = p := by
  simp [Perms.ofByte, Perms.toByte]

@[simp] theorem present_perms (p : Option Perms) :
    present p.isSome (Perms.ofByte ((p.map Perms.toByte).getD 0#8)) = p := by
  cases p with
  | none => rfl
  | some p => exact congrArg some (perms_ofByte_toByte p)

/-- The settings of a CONFIGURE INPUT are read back; a policy that is not given is not judged. -/
theorem configureInputParams_toBytes (p : Pattern) (c : InputConfig) :
    configureInputParams (p.toBytes ++ c.toBytes) = some (.configureInput p c) := by
  obtain ⟨isProtected, lock, policy, threshold, window, backStep⟩ := c
  cases policy with
  | none => simp [configureInputParams, Pattern.toBytes, InputConfig.toBytes, InputConfig.ofBytes]
  | some q => simp [configureInputParams, Pattern.toBytes, InputConfig.toBytes, InputConfig.ofBytes]

/-- Every operation that a record can carry is read back from its record. -/
theorem decodeOp_encodeOp {o : Op} (h : o.wf = true) : decodeOp (encodeOp o) = some o := by
  cases o with
  | openTap | setLevel | setGain =>
    simp [decodeOp, encodeOp, Op.kind, Op.params, Pattern.toBytes, bytesOf16, patternFlagsTwo]
  | closeTap p | readTap p | release p | stopGlide p | recheckFrontEnd p | readInput p | clearMarks p =>
    simp [decodeOp, encodeOp, Op.kind, Op.params, Pattern.toBytes, patternOnly]
  | setTapMute | setPhantom | setMode | claim =>
    simp [decodeOp, encodeOp, Op.kind, Op.params, Pattern.toBytes, patternAnd]
  | readMarks | keepalive | readSystemStatus | clearSupply | controlReset => rfl
  | setNoticeEnables on off =>
    have hmeets : on.meets off = false := by simpa [Op.wf] using h
    simp [decodeOp, encodeOp, Op.kind, Op.params, enablesParams, hmeets]
  | clearNotices n => simp [decodeOp, encodeOp, Op.kind, Op.params, oneByte]
  | configureInput p c => exact configureInputParams_toBytes p c
  | configureDesk d rank perms t => simp [decodeOp, encodeOp, Op.kind, Op.params, configureDeskParams]
  | openDesk | closeDesk | readDesk => simp [decodeOp, encodeOp, Op.kind, Op.params, oneByte]
  | setTiming x y z => simp [decodeOp, encodeOp, Op.kind, Op.params, setTimingParams]

theorem params_length_le (o : Op) : o.params.length ≤ 15 := by
  cases o <;> simp [Op.params, Pattern.toBytes, bytesOf16, InputConfig.toBytes]

/-! ## Records that carry an operation (R125, R151) -/

/-- The number of parameter bytes of each kind. -/
def paramCount (kind : Byte) : Nat :=
  match kind.toNat with
  | 0x01 | 0x03 | 0x08 | 0x21 => 5
  | 0x04 | 0x06 | 0x0A | 0x0B => 3
  | 0x11 | 0x15 | 0x26 | 0x27 | 0x28 => 0
  | 0x14 | 0x22 | 0x23 | 0x24 => 1
  | 0x20 => 8
  | 0x25 => 4
  | _ => 2

theorem params_length (o : Op) : o.params.length = paramCount o.kind := by
  cases o <;> rfl

theorem patternOnly_length {f : Pattern → Op} {l : List Byte} {o : Op} (h : patternOnly f l = some o) :
    l.length = 2 := by
  unfold patternOnly at h
  split at h
  · rfl
  · cases h

theorem patternAnd_length {f : Pattern → Byte → Option Op} {l : List Byte} {o : Op}
    (h : patternAnd f l = some o) : l.length = 3 := by
  unfold patternAnd at h
  split at h
  · rfl
  · cases h

theorem patternFlagsTwo_length {f : Pattern → Byte → Byte → Byte → Op} {l : List Byte} {o : Op}
    (h : patternFlagsTwo f l = some o) : l.length = 5 := by
  unfold patternFlagsTwo at h
  split at h
  · rfl
  · cases h

theorem noParams_length {q : Op} {l : List Byte} {o : Op} (h : noParams q l = some o) : l.length = 0 := by
  unfold noParams at h
  split at h
  · rfl
  · cases h

theorem oneByte_length {f : Byte → Op} {l : List Byte} {o : Op} (h : oneByte f l = some o) :
    l.length = 1 := by
  unfold oneByte at h
  split at h
  · rfl
  · cases h

theorem enablesParams_length {l : List Byte} {o : Op} (h : enablesParams l = some o) : l.length = 2 := by
  unfold enablesParams at h
  split at h
  · rfl
  · cases h

theorem configureInputParams_length {l : List Byte} {o : Op} (h : configureInputParams l = some o) :
    l.length = 8 := by
  unfold configureInputParams at h
  split at h
  · rfl
  · cases h

theorem configureDeskParams_length {l : List Byte} {o : Op} (h : configureDeskParams l = some o) :
    l.length = 5 := by
  unfold configureDeskParams at h
  split at h
  · rfl
  · cases h

theorem setTimingParams_length {l : List Byte} {o : Op} (h : setTimingParams l = some o) :
    l.length = 4 := by
  unfold setTimingParams at h
  split at h
  · rfl
  · cases h

/-- A record that carries an operation has its kind's number of parameter bytes. -/
theorem length_of_decodeOp {c : OpRec} {o : Op} (h : decodeOp c = some o) :
    c.params.length = paramCount c.kind := by
  have hkind := kind_of_decodeOp h
  obtain ⟨kind, l⟩ := c
  obtain rfl : kind = o.kind := hkind
  unfold decodeOp at h
  cases o with
  | openTap | setLevel | setGain => exact patternFlagsTwo_length h
  | closeTap | readTap | release | stopGlide | recheckFrontEnd | readInput | clearMarks =>
    exact patternOnly_length h
  | setTapMute | setPhantom | setMode | claim => exact patternAnd_length h
  | readMarks | keepalive | readSystemStatus | clearSupply | controlReset => exact noParams_length h
  | clearNotices | openDesk | closeDesk | readDesk => exact oneByte_length h
  | setNoticeEnables => exact enablesParams_length h
  | configureInput => exact configureInputParams_length h
  | configureDesk => exact configureDeskParams_length h
  | setTiming => exact setTimingParams_length h

/-- SET NOTICE ENABLES is read only from two sets that name no notice in common. -/
theorem enablesParams_wf {l : List Byte} {o : Op} (h : enablesParams l = some o) : o.wf = true := by
  unfold enablesParams at h
  split at h
  · split at h
    · cases h
    · rename_i x y hmeets
      cases h
      simpa [Op.wf] using hmeets
  · cases h

theorem wf_of_decodeOp {c : OpRec} {o : Op} (h : decodeOp c = some o) : o.wf = true := by
  have hkind := kind_of_decodeOp h
  obtain ⟨kind, l⟩ := c
  obtain rfl : kind = o.kind := hkind
  cases o with
  | setNoticeEnables => exact enablesParams_wf h
  | _ => rfl

/-! ## Records that carry none (R125, R151) -/

theorem kindKnown_kind (o : Op) : kindKnown o.kind = true := by
  cases o <;> rfl

theorem decodeOp_of_unknown {c : OpRec} (h : kindKnown c.kind = false) : decodeOp c = none := by
  refine Option.eq_none_iff_forall_ne_some.2 fun o ho => ?_
  rw [kind_of_decodeOp ho, kindKnown_kind] at h
  cases h

theorem modeOfCode_eq_none {v : Byte} (h : 3 < v.toNat) : Mode.ofCode v = none := by
  unfold Mode.ofCode
  split
  · omega
  · omega
  · omega
  · omega
  · rfl

theorem onOfCode_eq_none {v : Byte} (h : 1 < v.toNat) : onOfCode v = none := by
  unfold onOfCode
  split
  · omega
  · omega
  · rfl

theorem policyOfCode_eq_none {v : Byte} (h : 2 < v.toNat) : Policy.ofCode v = none := by
  unfold Policy.ofCode
  split
  · omega
  · omega
  · omega
  · rfl

theorem forall_bit {P : Nat → Prop} :
    (∀ i, i < 8 → P i) ↔ P 0 ∧ P 1 ∧ P 2 ∧ P 3 ∧ P 4 ∧ P 5 ∧ P 6 ∧ P 7 := by
  constructor
  · intro h
    exact ⟨h 0 (by decide), h 1 (by decide), h 2 (by decide), h 3 (by decide), h 4 (by decide), h 5 (by decide),
      h 6 (by decide), h 7 (by decide)⟩
  · rintro ⟨h0, h1, h2, h3, h4, h5, h6, h7⟩ i hi
    match i, hi with
    | 0, _ => exact h0
    | 1, _ => exact h1
    | 2, _ => exact h2
    | 3, _ => exact h3
    | 4, _ => exact h4
    | 5, _ => exact h5
    | 6, _ => exact h6
    | 7, _ => exact h7

/-- Two notice sets name no notice in common exactly when their bytes have no bit in common. -/
theorem meets_ofByte (x y : Byte) :
    (NoticeSet.ofByte x).meets (.ofByte y) = false ↔ x &&& y = 0 := by
  rw [BitVec.eq_of_getLsbD_eq_iff, forall_bit]
  simp [NoticeSet.meets, NoticeSet.ofByte, bit, and_assoc]

/-- Settles O7: each operation's fields are read back one by one, and each refusal is one field's. -/
theorem operationRecordRoundTrip : Obligations.OperationRecordRoundTrip := by
  refine ⟨fun o ho => ⟨decodeOp_encodeOp ho, params_length_le o⟩, fun c o h => ?_,
    fun c hc => decodeOp_of_unknown hc, fun b m v => ⟨fun hv => ?_, fun hv => ⟨?_, ?_⟩⟩,
    fun b m given bits policy threshold window step hgiven hpolicy => ?_, fun on off hmeets => ?_⟩
  · refine ⟨wf_of_decodeOp h, kind_of_decodeOp h, ?_⟩
    rw [length_of_decodeOp h, kind_of_decodeOp h]
    exact (params_length o).symm
  · exact congrArg (Option.map _) (modeOfCode_eq_none hv)
  · exact congrArg (Option.map _) (onOfCode_eq_none hv)
  · exact congrArg (Option.map _) (onOfCode_eq_none hv)
  · have hnone : InputConfig.ofBytes given bits policy threshold window step = none := by
      simp [InputConfig.ofBytes, bit, hgiven, policyOfCode_eq_none hpolicy]
    exact congrArg (Option.map _) hnone
  · refine if_pos ?_
    rw [← Bool.not_eq_false, meets_ofByte]
    exact hmeets

/-! ## The layout of a response (R152) -/

theorem opResult_toBytes_length (q : OpResult) : q.toBytes.length = 6 + q.image.length := by
  rw [OpResult.toBytes, List.length_append]
  rfl

theorem length_flatMap_le {α β : Type} {f : α → List β} {n : Nat} {l : List α}
    (h : ∀ q ∈ l, (f q).length ≤ n) : (l.flatMap f).length ≤ l.length * n := by
  induction l with
  | nil => exact Nat.zero_le _
  | cons q l ih =>
    obtain ⟨hq, hl⟩ := List.forall_mem_cons.1 h
    have hrest := ih hl
    rw [List.flatMap_cons, List.length_append, List.length_cons, Nat.succ_mul]
    omega

/-- The results of a lawful response take at most 38 bytes each. -/
theorem results_length_le {x : Response} (h : x.Lawful) :
    (x.results.flatMap OpResult.toBytes).length ≤ 608 := by
  obtain ⟨hcount, hresults⟩ := h
  have hle : (x.results.flatMap OpResult.toBytes).length ≤ x.results.length * 38 := by
    refine length_flatMap_le fun q hq => ?_
    obtain ⟨-, -, himage, -⟩ := hresults q hq
    rw [opResult_toBytes_length]
    omega
  omega

/-- The two bytes of a number below 2^16, the high one first. -/
theorem natBytes_value {n : Nat} (h : n < 65536) :
    ∃ hi lo : Byte, natBytes n = [hi, lo] ∧ 256 * hi.toNat + lo.toNat = n := by
  refine ⟨_, _, rfl, ?_⟩
  simp [Nat.shiftRight_eq_div_pow]
  omega

/-- Settles O9: a header of 4 bytes, then at most 16 results of at most 38 bytes. -/
theorem responseLayout : Obligations.ResponseLayout := by
  refine ⟨fun x hx => ?_, fun q => ?_, rfl, rfl⟩
  · have hbody := results_length_le hx
    obtain ⟨hi, lo, hbytes, hvalue⟩ :=
      natBytes_value (n := (x.results.flatMap OpResult.toBytes).length + 4) (by omega)
    have hlayout : x.toBytes = x.tag :: byteOf x.results.length :: hi :: lo ::
        x.results.flatMap OpResult.toBytes := by
      unfold Response.toBytes
      dsimp only
      rw [hbytes]
      rfl
    rw [hlayout]
    exact ⟨Nat.add_le_add_right hbody 4, rfl, rfl, ⟨hi, lo, rfl, rfl, hvalue⟩, rfl⟩
  · unfold OpResult.toBytes
    cases q.first <;> rfl

end Sys2Proof.RecordProofs
end

section
/-! PROOFS. The operations that carry no reading: CLEAR MARKS, SET NOTICE ENABLES, CLEAR NOTICES and KEEPALIVE
(R132, R136 to R139), SET TIMING, CLEAR SUPPLY and CONTROL RESET (R129, R131, R140). -/

namespace Sys2Proof.SettingProofs

open Sys2Proof Sys2Proof.Machine Sys2Proof.TapProofs Sys2Proof.DeskProofs

/-! ## The next application -/

/-- An operation that carries no pattern and that nothing refuses is applied once. -/
theorem gatherSingle_done (s : State) (r : Run) :
    s.gatherSingle r .done [] = s.gather r ⟨.done, 1, 1, 0, none, []⟩ := rfl

section Next
variable {s : State} {r : Run}

theorem exec_clearMarks {p : Pattern} {k : Input} {rest : List Input} {past : List (Input × ResultCode)}
    (hs : s.sends r (.clearMarks p)) (hn : s.nextAt r p false k rest past) :
    exec .clearMarks s =
      .next ((s.modSlot r.slot (SlotRec.clearMark k)).answered r k rest past .done []) :=
  congrArg Host.Outcome.next ((State.applyKind_of_sends hs _).trans (State.onPattern_of_nextAt hn _))

theorem exec_setNoticeEnables {on off : NoticeSet} (hs : s.sends r (.setNoticeEnables on off)) :
    exec .setNoticeEnables s =
      .next ((s.modSlot r.slot (SlotRec.turnEnables on off)).gatherSingle r .done []) :=
  congrArg Host.Outcome.next (State.applyKind_of_sends hs _)

theorem exec_clearNotices {n : NoticeSet} (hs : s.sends r (.clearNotices n)) :
    exec .clearNotices s = .next ((s.modSlot r.slot (SlotRec.clearNotices n)).gatherSingle r .done []) :=
  congrArg Host.Outcome.next (State.applyKind_of_sends hs _)

theorem exec_keepalive (hs : s.sends r .keepalive) : exec .keepalive s = .next (s.gatherSingle r .done []) :=
  congrArg Host.Outcome.next (State.applyKind_of_sends hs _)

theorem exec_setTiming {settle discharge align : Option Byte}
    (hs : s.sends r (.setTiming settle discharge align)) :
    exec .setTiming s = .next (State.gatherSingle { s with sys := s.sys.setTiming settle discharge align } r
      (if carriedClamped 1 30 settle || carriedClamped 5 50 discharge || carriedClamped 0 63 align then .clamped
        else .done) []) :=
  congrArg Host.Outcome.next (State.applyKind_of_sends hs _)

theorem exec_clearSupply (hs : s.sends r .clearSupply) : exec .clearSupply s =
    .next (State.gatherSingle { s with sys := { s.sys with supplyFlag := false } } r .done []) :=
  congrArg Host.Outcome.next (State.applyKind_of_sends hs _)

theorem exec_controlReset (hs : s.sends r .controlReset) :
    exec .controlReset s = .next (s.requestReset.gatherSingle r .done []) :=
  congrArg Host.Outcome.next (State.applyKind_of_sends hs _)

end Next

/-! ## Notices (R132, R136, R138, R139) -/

/-- Naming a notice off wins over naming it on. -/
theorem turned_eq (old on off : Bool) : ((old || on) && !off) = if off then false else old || on := by
  cases off <;> simp

theorem turnEnables_eq (e on off : NoticeSet) :
    let turned := fun (old on off : Bool) => if off then false else old || on
    Machine.turnEnables e on off = ⟨turned e.response on.response off.response,
      turned e.marks on.marks off.marks, turned e.ownership on.ownership off.ownership,
      turned e.glideDone on.glideDone off.glideDone, turned e.frontend on.frontend off.frontend,
      turned e.overload on.overload off.overload, turned e.overrun on.overrun off.overrun,
      turned e.supply on.supply off.supply⟩ := by
  simp only [Machine.turnEnables, turned_eq]

/-- Settles O46: each operation changes the sender's own record by one function. -/
theorem noticeOperationsApply : Obligations.NoticeOperationsApply := by
  intro s r q own turned
  refine ⟨fun p k rest past hs hn => exec_clearMarks hs hn, fun on off hs => ?_, fun n hs => ?_, exec_keepalive⟩
  · rw [exec_setNoticeEnables hs, gatherSingle_done, State.modSlot, SlotRec.turnEnables, turnEnables_eq]
    rfl
  · rw [exec_clearNotices hs, gatherSingle_done, State.modSlot, SlotRec.clearNotices]
    simp only [Bool.and_eq_true]
    rfl

/-! ## System settings (R129, R131, R140) -/

/-- Settles O50: the timings are carried as `carried` says, and CLAMPED where one was out of its range. -/
theorem systemSettingsApply : Obligations.SystemSettingsApply := by
  intro s r within kept
  refine ⟨fun settle discharge align hs => ?_, exec_clearSupply, exec_controlReset⟩
  have hcode : (carriedClamped 1 30 settle || carriedClamped 5 50 discharge ||
      carriedClamped 0 63 align) = true ↔ ¬ (kept 1 30 settle ∧ kept 5 50 discharge ∧ kept 0 63 align) := by
    rw [Bool.or_eq_true, Bool.or_eq_true, carriedClamped_iff (by decide), carriedClamped_iff (by decide),
      carriedClamped_iff (by decide), Classical.not_and_iff_not_or_not, Classical.not_and_iff_not_or_not,
      or_assoc]
  have hwithin lo hi old b : carried lo hi old b = within lo hi old b := by cases b <;> rfl
  rw [exec_setTiming hs, clampedIf_congr hcode, ite_not, Sys.setTiming, hwithin, hwithin, hwithin]
  split
  · rfl
  · rfl

end Sys2Proof.SettingProofs
end

section
/-! PROOFS. READ INPUT (R132, R136): the bytes of the input image (R153), then its parts as they stand in every
image taken. -/

namespace Sys2Proof.InputImageProofs

open Sys2Proof Sys2Proof.Machine Sys2Proof.TapProofs Sys2Proof.QueueProofs Sys2Proof.DeskProofs

/-! ## The application (R132, R136) -/

theorem readInputOne_eq (d : Slot) (k : Input) (s : State) :
    readInputOne d k s = ⟨{ s with
        freeCount := s.freeCount + 32
        slots := s.slots.set d { s.slot d with marks := (s.slot d).marks.set k false } }, .done,
      fillImage s.freeCount (inputImage s k)⟩ := by
  unfold readInputOne State.takeImage
  rw [inputImage_length]
  rfl

theorem exec_readInput {s : State} {r : Run} {p : Pattern} {k : Input} {rest : List Input}
    {past : List (Input × ResultCode)} (hs : s.sends r (.readInput p)) (hn : s.nextAt r p true k rest past) :
    exec .readInput s = .next ((readInputOne r.slot k s).state.answered r k rest past
      (readInputOne r.slot k s).code (readInputOne r.slot k s).image) :=
  congrArg Host.Outcome.next ((State.applyKind_of_sends hs _).trans (State.onPattern_of_nextAt hn _))

/-! ## Bytes in parts (R153) -/

/-- Byte 1: the mode, and the flags of the input record. -/
theorem recordByte_shows (m : Mode) (phantom lock isProtected fault recheck : Bool) :
    let b := fields [(m.code, 0), (phantom.toNat, 2), (lock.toNat, 3), (isProtected.toNat, 4),
      (fault.toNat, 5), (recheck.toNat, 6)]
    (b &&& 0x03 = match m with
      | .off => 0
      | .mic => 1
      | .line => 2
      | .inst => 3) ∧
    (b &&& 0x04 = if phantom then 0x04 else 0) ∧ (b &&& 0x08 = if lock then 0x08 else 0) ∧
    (b &&& 0x10 = if isProtected then 0x10 else 0) ∧ (b &&& 0x20 = if fault then 0x20 else 0) ∧
    (b &&& 0x40 = if recheck then 0x40 else 0) := by
  revert phantom lock isProtected fault recheck
  cases m <;> decide

/-- Byte 6: the sequencer's state, and its change in flight. -/
theorem sequencerByte_shows (q : SeqState) (there abandoned : Bool) :
    let b := fields [(q.code, 0), (there.toNat, 4), (abandoned.toNat, 5)]
    (b &&& 0x07 = match q with
      | .idle => 0
      | .muting => 1
      | .switching => 2
      | .settling => 3
      | .unmuting => 4
      | .halted => 5) ∧
    (b &&& 0x10 = if there then 0x10 else 0) ∧ (b &&& 0x20 = if abandoned then 0x20 else 0) := by
  revert there abandoned
  cases q <;> decide

/-- Byte 7: the change in flight. -/
theorem changeByte_shows (v : FrontValue) (d : Slot) :
    fields [(v.kind, 7), (d, 4), (v.code, 0)] &&& 0xF3 =
      BitVec.ofNat 8 (128 * v.kind + 16 * d.val + v.code) := by
  revert d
  rcases v with m | on
  · cases m <;> decide
  · cases on <;> decide

/-- Byte 8: the pending request. -/
theorem requestByte_shows (v : FrontValue) (d : Slot) :
    let b := fields [(1, 7), (v.kind, 6), (d, 3), (v.code, 0)]
    b &&& 0x80 = 0x80 ∧ b &&& 0x7B = BitVec.ofNat 8 (64 * v.kind + 8 * d.val + v.code) := by
  revert d
  rcases v with m | on
  · cases m <;> decide
  · cases on <;> decide

/-- Byte 9: the owner. -/
theorem ownerByte_shows (d : Slot) :
    let b := fields [(1, 7), (d, 0)]
    b &&& 0x80 = 0x80 ∧ b &&& 0x07 = BitVec.ofNat 8 d.val := by
  revert d
  decide

/-- Bytes 11..15: a rank, of which the byte holds four bits, and its slot. -/
theorem rankByte_shows (rank : Nat) (d : Slot) :
    let b := fields [(rank, 4), (d, 0)]
    b &&& 0xF0 = BitVec.ofNat 8 (16 * rank) ∧ b &&& 0x07 = BitVec.ofNat 8 d.val := by
  have hlow : ∀ (n : Fin 16) (d : Slot),
      fields [(n.val, 4), (d.val, 0)] &&& 0xF0 = BitVec.ofNat 8 (16 * n.val) ∧
      fields [(n.val, 4), (d.val, 0)] &&& 0x07 = BitVec.ofNat 8 d.val := by decide
  have hfields : fields [(rank, 4), (d.val, 0)] = fields [(rank % 16, 4), (d.val, 0)] := by
    apply BitVec.eq_of_toNat_eq
    simp only [fields, byteOf, List.foldr, BitVec.toNat_ofNat]
    omega
  have hrank : BitVec.ofNat 8 (16 * rank) = BitVec.ofNat 8 (16 * (rank % 16)) := by
    apply BitVec.eq_of_toNat_eq
    simp only [BitVec.toNat_ofNat]
    omega
  intro b
  rw [hrank, show b = _ from hfields]
  exact hlow ⟨rank % 16, Nat.mod_lt _ (by decide)⟩ d

/-- Byte 16: the slots that hold a tap. -/
theorem holdersByte_shows (x : Inp) (d : Slot) :
    byteOfBits (x.taps.data.map Option.isSome) &&& BitVec.ofNat 8 (2 ^ d.val) =
      if x.holds d then BitVec.ofNat 8 (2 ^ d.val) else 0 := by
  have hbit : (byteOfBits (x.taps.data.map Option.isSome)).getLsbD d.val = x.holds d := by
    rw [byteOfBits_getLsbD _ (by omega), table_data, List.map_map, List.getElem?_map,
      List.getElem?_eq_getElem (by simp), List.getElem_finRange]
    rfl
  have htwo : ∀ d : Slot, BitVec.ofNat 8 (2 ^ d.val) = BitVec.twoPow 8 d.val := by decide
  rw [htwo, BitVec.and_twoPow, hbit]
  rfl

/-- Byte 19: that a glide is held, its source, its state, its step and its retarget. -/
theorem glideByte_shows (source : GlideSource) (state : GlideState) (step : StepState) (staged : Bool) :
    let b := fields [(1, 7), (if source = .guard then 1 else 0, 6), (if state = .stepping then 1 else 0, 5),
      (if step = .absent then 0 else 1, 4), (staged.toNat, 3)]
    b &&& 0x80 = 0x80 ∧ (b &&& 0x40 = if source == .guard then 0x40 else 0) ∧
    (b &&& 0x20 = if state == .stepping then 0x20 else 0) ∧
    (b &&& 0x10 = if step != .absent then 0x10 else 0) ∧ (b &&& 0x08 = if staged then 0x08 else 0) := by
  revert staged
  cases source <;> cases state <;> cases step <;> decide

/-- Byte 24: the guard's policy and its last outcome. -/
theorem guardByte_shows (policy : Policy) (last : GuardOutcome) :
    let b := fields [(policy.code, 0), (last.code, 4)]
    (b &&& 0x03 = match policy with
      | .off => 0
      | .report => 1
      | .backoff => 2) ∧
    (b &&& 0x70 = match last with
      | .none => 0x00
      | .reported => 0x10
      | .backedOff => 0x20
      | .atFloor => 0x30
      | .inFault => 0x40) := by
  cases policy <;> cases last <;> decide

/-! ## The image in its parts (R153) -/

/-- The owner's effective level, 0 where no owner holds a tap (R23). -/
theorem ownerLevel_eq (x : Inp) : x.ownerLevel.getD 0 = match x.owner.bind x.tap with
    | some t => x.net + t.trim
    | none => 0 := by
  unfold Inp.ownerLevel
  cases x.owner with
  | none => rfl
  | some d => cases ht : x.tap d <;> simp [ht]

section Image
variable (n : Nat) (s : State) (k : Input)

/-- The input image as it is taken, with free value `n` the next one. -/
def taken : List Byte := fillImage n (inputImage s k)

theorem taken_length : (taken n s k).length = 32 := (fillImage_length ..).trans (inputImage_length ..)

variable {s k} in
/-- A part of a byte of the image. -/
theorem taken_shows {i : Nat} {mask byte m v : Byte} (hb : (inputImage s k)[i]? = some ⟨mask, byte⟩)
    (hm : m &&& mask = m) (hv : byte &&& m = v) : shows (taken n s k) i m v := fillImage_shows hb hm hv n

variable {s k} in
/-- A byte of the image that is stated whole. -/
theorem taken_shows_stated {i : Nat} {v : Byte} (hb : (inputImage s k)[i]? = some (stated v)) :
    shows (taken n s k) i 0xFF v := fillImage_shows_stated hb n

theorem taken_net : ((taken n s k).drop 4).take 2 = bytesOf16 (BitVec.ofInt 16 (s.inp k).net) := rfl

theorem taken_ownerLevel :
    ((taken n s k).drop 17).take 2 = bytesOf16 (BitVec.ofInt 16 ((s.inp k).ownerLevel.getD 0)) := rfl

/-- Bytes 11..15 hold the claim queue. -/
theorem inputImage_queue {i : Nat} (hi : i < 5) : (inputImage s k)[11 + i]? =
    some (match (s.inp k).queue[i]? with
      | some d => partly 0xF7 (fields [((s.slot d).rank, 4), (d, 0)])
      | none => stated 0) := by
  match i, hi with
  | 0, _ => rfl
  | 1, _ => rfl
  | 2, _ => rfl
  | 3, _ => rfl
  | 4, _ => rfl

/-- Bytes 0..18 of the image. -/
def imageFront : List ImageByte := (inputImage s k).take 19

theorem imageFront_length : (imageFront s k).length = 19 := rfl

theorem inputImage_eq : inputImage s k =
    imageFront s k ++ (glideBytes (s.inp k).glide ++ guardBytes (s.inp k).guard) := by
  unfold inputImage
  dsimp only
  rw [List.append_assoc _ (glideBytes _)]
  rfl

/-- Bytes 19..23 hold the glide. -/
theorem inputImage_glide {i : Nat} (hi : i < 5) :
    (inputImage s k)[19 + i]? = (glideBytes (s.inp k).glide)[i]? := by
  rw [inputImage_eq, List.getElem?_append_right (Nat.le_add_right 19 i), imageFront_length,
    Nat.add_sub_cancel_left, List.getElem?_append_left (by rwa [glideBytes_length])]

/-- Bytes 24..31 hold the guard record. -/
theorem inputImage_guard : (inputImage s k)[24]? = (guardBytes (s.inp k).guard)[0]? := by
  have hbefore : (imageFront s k ++ glideBytes (s.inp k).glide).length = 24 := by
    rw [List.length_append, imageFront_length, glideBytes_length]
  rw [inputImage_eq, ← List.append_assoc, List.getElem?_append_right (Nat.le_of_eq hbefore), hbefore, Nat.sub_self]

theorem taken_guard : (taken n s k).drop 25 =
    [byteOf (s.inp k).guard.threshold, byteOf (s.inp k).guard.window, byteOf (s.inp k).guard.backStep,
      byteOf (s.inp k).guard.count, byteOf (s.inp k).guard.total] ++
    natBytes ((s.inp k).guard.timer.getD 0xFFFF) := by
  rw [taken, inputImage_eq, guardBytes, ← List.append_assoc, List.append_cons, fillImage_append,
    fillImage_statedAll, List.drop_left']
  rw [fillImage_length, List.length_append, List.length_append, imageFront_length, glideBytes_length]
  rfl

/-! ### Fields that may be absent -/

theorem taken_requestThere :
    shows (taken n s k) 8 0x80 (if (s.inp k).request.isSome then 0x80 else 0) := by
  have hbyte : (inputImage s k)[8]? = some (requestByte (s.inp k).request) := rfl
  cases hq : (s.inp k).request with
  | none =>
    rw [hq] at hbyte
    exact taken_shows n hbyte (by decide) rfl
  | some q =>
    rw [hq] at hbyte
    exact taken_shows n hbyte (by decide) (requestByte_shows q.value q.desk).1

theorem taken_ownerThere : shows (taken n s k) 9 0x80 (if (s.inp k).owner.isSome then 0x80 else 0) := by
  have hbyte : (inputImage s k)[9]? = some (ownerByte (s.inp k).owner) := rfl
  cases ho : (s.inp k).owner with
  | none =>
    rw [ho] at hbyte
    exact taken_shows n hbyte (by decide) rfl
  | some d =>
    rw [ho] at hbyte
    exact taken_shows n hbyte (by decide) (ownerByte_shows d).1

theorem taken_glideThere : shows (taken n s k) 19 0x80 (if (s.inp k).glide.isSome then 0x80 else 0) := by
  have hbyte := inputImage_glide s k (i := 0) (by decide)
  cases hg : (s.inp k).glide with
  | none =>
    rw [hg] at hbyte
    exact taken_shows n hbyte (by decide) rfl
  | some g =>
    rw [hg] at hbyte
    exact taken_shows n hbyte (by decide) (glideByte_shows g.source g.state g.step g.staged.isSome).1

/-- Byte 16 has a bit for each slot. -/
theorem taken_holder (d : Slot) : shows (taken n s k) 16 (BitVec.ofNat 8 (2 ^ d.val))
    (if (s.inp k).holds d then BitVec.ofNat 8 (2 ^ d.val) else 0) := by
  have hmask : ∀ d : Slot, BitVec.ofNat 8 (2 ^ d.val) &&& (0x3F : Byte) = BitVec.ofNat 8 (2 ^ d.val) := by
    decide
  exact taken_shows n rfl (hmask d) (holdersByte_shows (s.inp k) d)

variable {s k}

theorem taken_change {c : Change} (hc : (s.inp k).inFlight = some c) : shows (taken n s k) 7 0xF3
    (BitVec.ofNat 8 (128 * c.value.kind + 16 * c.desk.val + c.value.code)) := by
  have hbyte : (inputImage s k)[7]? = some (changeByte (s.inp k).inFlight) := rfl
  rw [hc] at hbyte
  exact taken_shows n hbyte (by decide) (changeByte_shows c.value c.desk)

theorem taken_request {q : Request} (hq : (s.inp k).request = some q) : shows (taken n s k) 8 0x7B
    (BitVec.ofNat 8 (64 * q.value.kind + 8 * q.desk.val + q.value.code)) := by
  have hbyte : (inputImage s k)[8]? = some (requestByte (s.inp k).request) := rfl
  rw [hq] at hbyte
  exact taken_shows n hbyte (by decide) (requestByte_shows q.value q.desk).2

theorem taken_owner {d : Slot} (hd : (s.inp k).owner = some d) :
    shows (taken n s k) 9 0x07 (BitVec.ofNat 8 d.val) := by
  have hbyte : (inputImage s k)[9]? = some (ownerByte (s.inp k).owner) := rfl
  rw [hd] at hbyte
  exact taken_shows n hbyte (by decide) (ownerByte_shows d).2

theorem taken_queued {i : Nat} (hi : i < 5) {d : Slot} (hd : (s.inp k).queue[i]? = some d) :
    shows (taken n s k) (11 + i) 0xF0 (BitVec.ofNat 8 (16 * (s.slot d).rank)) ∧
    shows (taken n s k) (11 + i) 0x07 (BitVec.ofNat 8 d.val) := by
  have hbyte := inputImage_queue s k hi
  rw [hd] at hbyte
  obtain ⟨hrank, hslot⟩ := rankByte_shows (s.slot d).rank d
  exact ⟨taken_shows n hbyte (by decide) hrank, taken_shows n hbyte (by decide) hslot⟩

theorem taken_notQueued {i : Nat} (hi : i < 5) (hlen : (s.inp k).queue.length ≤ i) :
    shows (taken n s k) (11 + i) 0xFF 0 := by
  have hbyte := inputImage_queue s k hi
  rw [List.getElem?_eq_none hlen] at hbyte
  exact taken_shows_stated n hbyte

/-- Bytes 19..23 where a glide is held. -/
theorem taken_glide {g : Glide} (hg : (s.inp k).glide = some g) :
    shows (taken n s k) 19 0x40 (if g.source == .guard then 0x40 else 0) ∧
    shows (taken n s k) 19 0x20 (if g.state == .stepping then 0x20 else 0) ∧
    shows (taken n s k) 19 0x10 (if g.step != .absent then 0x10 else 0) ∧
    shows (taken n s k) 19 0x08 (if g.staged.isSome then 0x08 else 0) ∧
    shows (taken n s k) 20 0xFF (BitVec.ofNat 8 g.target) ∧
    shows (taken n s k) 21 0xFF (BitVec.ofNat 8 g.rate) ∧
    (∀ q, g.staged = some q →
      shows (taken n s k) 22 0xFF (BitVec.ofNat 8 q.target) ∧
      shows (taken n s k) 23 0xFF (BitVec.ofNat 8 q.rate)) := by
  have hbyte {i : Nat} (hi : i < 5) : (inputImage s k)[19 + i]? = (glideBytes (some g))[i]? :=
    hg ▸ inputImage_glide s k hi
  have hflags := hbyte (i := 0) (by decide)
  obtain ⟨-, hsource, hstate, hstep, hstaged⟩ := glideByte_shows g.source g.state g.step g.staged.isSome
  refine ⟨taken_shows n hflags (by decide) hsource, taken_shows n hflags (by decide) hstate,
    taken_shows n hflags (by decide) hstep, taken_shows n hflags (by decide) hstaged,
    taken_shows_stated n (hbyte (i := 1) (by decide)), taken_shows_stated n (hbyte (i := 2) (by decide)),
    fun q hq => ?_⟩
  have hretarget : glideBytes (some g) = (glideBytes (some g)).take 3 ++
      [stated (byteOf q.target), stated (byteOf q.rate)] := by
    simp [glideBytes, hq]
  rw [hretarget] at hbyte
  exact ⟨taken_shows_stated n (hbyte (i := 3) (by decide)), taken_shows_stated n (hbyte (i := 4) (by decide))⟩

end Image

/-- Settles O44: each field is one stated byte of the image or part of one. -/
theorem readInputShowsRecord : Obligations.ReadInputShowsRecord := by
  intro s r p k rest past hs hn x flag kind value
  have hkind (v : FrontValue) : kind v = v.kind := by cases v <;> rfl
  have hvalue (v : FrontValue) : value v = v.code := by
    rcases v with m | on
    · cases m <;> rfl
    · cases on <;> rfl
  have hpad : BitVec.ofInt 8 (padOffset x.mode) = BitVec.ofInt 8 (if x.mode = .line then -20 else 0) := by
    cases x.mode <;> rfl
  have hlevel := ownerLevel_eq x
  have hrecord : (inputImage s k)[1]? = some ⟨0x7F, _⟩ := rfl
  have hsequencer : (inputImage s k)[6]? = some ⟨0x37, _⟩ := rfl
  obtain ⟨hmode, hphantom, hlock, hprotected, hfault, hrecheck⟩ :=
    recordByte_shows x.mode x.phantom x.lock x.isProtected x.fault x.recheck
  obtain ⟨hseq, hthere, habandoned⟩ :=
    sequencerByte_shows x.seq x.inFlight.isSome (x.inFlight.any (·.abandoned))
  obtain ⟨hpolicy, hlast⟩ := guardByte_shows x.guard.policy x.guard.last
  refine ⟨taken s.freeCount s k, ?_, taken_length .., taken_shows_stated _ rfl,
    taken_shows _ hrecord (by decide) hmode, taken_shows _ hrecord (by decide) hphantom,
    taken_shows _ hrecord (by decide) hlock, taken_shows _ hrecord (by decide) hprotected,
    taken_shows _ hrecord (by decide) hfault, taken_shows _ hrecord (by decide) hrecheck,
    taken_shows_stated _ rfl, hpad ▸ taken_shows_stated _ rfl, taken_net ..,
    taken_shows _ hsequencer (by decide) hseq, taken_shows _ hsequencer (by decide) hthere,
    taken_shows _ hsequencer (by decide) habandoned, ?_, ?_, ?_, ?_, ?_, taken_shows_stated _ rfl, ?_, ?_, ?_,
    ?_, ?_, ?_, taken_shows _ (inputImage_guard s k) (by decide) hpolicy,
    taken_shows _ (inputImage_guard s k) (by decide) hlast, taken_guard ..⟩
  · rw [exec_readInput hs hn, readInputOne_eq]
    rfl
  · intro c hc
    rw [hkind, hvalue]
    exact taken_change _ hc
  · exact taken_requestThere ..
  · intro q hq
    rw [hkind, hvalue]
    exact taken_request _ hq
  · exact taken_ownerThere ..
  · exact fun d hd => taken_owner _ hd
  · exact fun i hi d hd => taken_queued _ hi hd
  · exact fun i hi hlen => taken_notQueued _ hi hlen
  · exact fun d => taken_holder ..
  · exact (taken_ownerLevel ..).trans (congrArg (fun l => bytesOf16 (BitVec.ofInt 16 l)) hlevel)
  · exact taken_glideThere ..
  · exact fun g hg => taken_glide _ hg

end Sys2Proof.InputImageProofs
end

section
/-! PROOFS. What makes a slot hold ATTN low (R137, R141), then what an event at one input marks and raises, with
the fields whose changes mark (R133 to R135, R137, R138). -/

namespace Sys2Proof.NoticeProofs

open Sys2Proof Sys2Proof.Machine Sys2Proof.GlideProofs Sys2Proof.SlotProofs Sys2Proof.DeskProofs

/-! ## The attention contribution (R137, R141) -/

theorem noticeFlags_response (r : SlotRec) : r.noticeFlags.response = true ↔ r.responses ≠ [] := by
  simp [SlotRec.noticeFlags]

theorem noticeFlags_marks (r : SlotRec) : r.noticeFlags.marks = true ↔ ∃ k, r.marks.get k = true := by
  rw [SlotRec.noticeFlags, bne_iff_ne, ne_eq, markCount_eq_zero, Classical.not_forall]
  simp only [Bool.not_eq_false]

/-- Two notice sets meet in a level notice, in a sticky one other than GLIDE_DONE, or in GLIDE_DONE. -/
theorem noticeSet_meets_iff (a b : NoticeSet) : a.meets b = true ↔
    (a.response = true ∧ b.response = true) ∨ (a.marks = true ∧ b.marks = true) ∨
    (a.ownership = true ∧ b.ownership = true) ∨ (a.frontend = true ∧ b.frontend = true) ∨
    (a.overload = true ∧ b.overload = true) ∨ (a.overrun = true ∧ b.overrun = true) ∨
    (a.supply = true ∧ b.supply = true) ∨ (a.glideDone = true ∧ b.glideDone = true) := by
  simp only [NoticeSet.meets, Bool.or_eq_true, Bool.and_eq_true]
  apply iff_of_eq
  ac_rfl

/-- Settles O13: the contribution is the enables meeting the notice flags, with the pulse window in place of the
GLIDE_DONE flag. -/
theorem attentionContribution : Obligations.AttentionContribution := by
  intro r
  rw [SlotRec.contributes, Bool.and_eq_true, live_iff, noticeSet_meets_iff]
  refine and_congr_right fun _ => ?_
  rw [← noticeFlags_response, ← noticeFlags_marks]
  rfl

/-! ## What marks (R134, R135) -/

/-- A change of the record marks for tap holders and observers, a change of a tap for its holder. -/
theorem changeMarks_iff (old new : Inp) (d : Slot) (r : SlotRec) : changeMarks old new d r = true ↔
    r.state ≠ .closed ∧
      ((old.view ≠ new.view ∧ (new.holds d = true ∨ r.perms.observer = true)) ∨
        (new.holds d = true ∧ old.tapView d ≠ new.tapView d)) := by
  simp only [changeMarks, SlotRec.observes, Bool.and_eq_true, Bool.or_eq_true, bne_iff_ne, ← live_iff]
  exact and_congr_right fun hlive => by simp only [hlive, true_and]

/-- The sequencer shows in the record as IDLE or not. -/
theorem busy_eq_iff (p q : SeqState) : (p != .idle) = (q != .idle) ↔ (p = .idle ↔ q = .idle) := by
  rw [Bool.eq_iff_iff, bne_iff_ne, bne_iff_ne, Decidable.not_iff_not]

/-- The set of tap holders, slot by slot. -/
theorem holders_eq_iff (x y : Inp) :
    x.taps.data.map Option.isSome = y.taps.data.map Option.isSome ↔ ∀ d, x.holds d = y.holds d := by
  rw [table_data x.taps, table_data y.taps, List.map_map, List.map_map, List.map_inj_left]
  exact forall_congr' fun d => ⟨fun h => h (List.mem_finRange d), fun h _ => h⟩

/-- The owner's effective level where an owner holds a tap. -/
theorem ownerLevel_eq_bind (x : Inp) :
    x.ownerLevel = x.owner.bind fun d => (x.tap d).map fun t => x.net + t.trim := by
  unfold Inp.ownerLevel
  cases x.owner <;> rfl

/-- The claim position counts only where there is a tap (R135). -/
theorem tapView_eq_iff (x y : Inp) (d : Slot) :
    let tap := fun z : Inp => (z.tap d).map fun t => (t.role, t.desired, t.trim, t.mute)
    x.tapView d = y.tapView d ↔
      tap x = tap y ∧ (x.holds d = true → x.claimPosition d = y.claimPosition d) := by
  intro tap
  simp only [Inp.tapView, Inp.holds, tap]
  cases x.tap d with
  | none => cases y.tap d <;> simp
  | some t => cases y.tap d <;> simp [and_assoc]

/-- Settles O14: an event's effects are those of its commit, which marks where the views of the record or of a
tap differ. -/
theorem eventMarksAndNotices : Obligations.EventMarksAndNotices := by
  refine ⟨fun s k x out => ?_, fun x y => ?_⟩
  · obtain ⟨-, hexecutor, hsys, hport, hfree, hpending, hslot⟩ := s.commit_spec k ⟨x, out, .done⟩
    refine ⟨State.commit_inp_self .., fun j => State.commit_inp_ne s _,
      ⟨hexecutor, hsys, hport, hfree, hpending⟩, fun d => ?_⟩
    obtain ⟨hsame, hmarks, hflags, hpulse⟩ := hslot d
    refine ⟨hsame, fun j => ?_, fun n => ?_, ?_⟩
    · rw [State.after, hmarks]
      simp only [Bool.or_eq_true, Bool.and_eq_true, decide_eq_true_eq, List.contains_iff_mem, live_iff,
        and_assoc]
      exact or_congr_right (and_congr_right fun hlive => by rw [changeMarks_iff, and_iff_right hlive])
    · rw [State.after, hflags, Bool.or_eq_true, Bool.and_eq_true, List.contains_iff_mem, live_iff]
    · rw [State.after, hpulse]
      simp only [live_iff]
  · intro level glide tap
    refine ⟨?_, tapView_eq_iff x y⟩
    simp only [Inp.view, RecordView.mk.injEq, Prod.mk.injEq, busy_eq_iff, holders_eq_iff, ownerLevel_eq_bind,
      level, glide]

end Sys2Proof.NoticeProofs
end

section
/-! PROOFS. The bundle layout (R144, R151): the operation records that a frame is read into are those it is laid out
from, then the same of the whole frame. -/

namespace Sys2Proof.BundleLayoutProofs

open Sys2Proof Sys2Proof.QueueProofs Sys2Proof.RecordProofs

/-! ## Operation records in a frame -/

/-- The records read use up the bytes in the layout of R151. -/
theorem parseRecords_layout {n : Nat} {bytes : List Byte} {ops : List OpRec}
    (h : parseRecords n bytes = some ops) : bytes = ops.flatMap OpRec.toBytes := by
  induction n generalizing bytes ops with
  | zero =>
    cases bytes with
    | nil =>
      cases h
      rfl
    | cons b bs => cases h
  | succ n ih =>
    match bytes, h with
    | kind :: len :: rest, h =>
      rw [parseRecords] at h
      split at h
      · rename_i hfits
        obtain ⟨later, hlater, rfl⟩ := Option.map_eq_some_iff.1 h
        have hlen : (rest.take len.toNat).length = len.toNat := List.length_take_of_le hfits.2
        rw [List.flatMap_cons, ← ih hlater, OpRec.toBytes, hlen, BitVec.ofNat_toNat, BitVec.setWidth_eq,
          List.cons_append, List.cons_append, List.take_append_drop]
      · cases h

/-- Records whose parameters fit are read back from their layout. -/
theorem parseRecords_flatMap {ops : List OpRec} (h : ∀ c ∈ ops, c.params.length ≤ 15) :
    parseRecords ops.length (ops.flatMap OpRec.toBytes) = some ops := by
  induction ops with
  | nil => rfl
  | cons c ops ih =>
    obtain ⟨hc, hops⟩ := List.forall_mem_cons.1 h
    have hlen : (BitVec.ofNat 8 c.params.length).toNat = c.params.length :=
      Nat.mod_eq_of_lt (by omega)
    have hfits : c.params.length ≤ 15 ∧ c.params.length ≤ (c.params ++ ops.flatMap OpRec.toBytes).length :=
      ⟨hc, by rw [List.length_append]; omega⟩
    rw [List.flatMap_cons, OpRec.toBytes, List.length_cons, List.cons_append, List.cons_append, parseRecords,
      hlen, if_pos hfits, List.drop_left, List.take_left, ih hops]
    rfl

/-! ## Frames -/

/-- What a frame is that is accepted: whole bytes, a header whose count and length are right, and its records. -/
theorem parseBundle_eq_ok_iff {bytes : List Byte} {stray : Nat} {b : Bundle} :
    parseBundle bytes stray = .ok b ↔ stray = 0 ∧ ∃ count hi lo rest,
      bytes = count :: hi :: lo :: b.tag :: rest ∧ 1 ≤ count.toNat ∧ count.toNat ≤ 16 ∧ (hi ++ lo).toNat = bytes.length ∧
      parseRecords count.toNat rest = some b.ops := by
  constructor
  · intro h
    unfold parseBundle at h
    split at h
    · cases h
    rename_i hstray
    split at h
    · rename_i count hi lo tag rest
      split at h
      · cases h
      split at h
      · cases h
      rename_i hcount hlength
      split at h
      · rename_i ops hops
        cases h
        exact ⟨of_not_not hstray, count, hi, lo, rest, rfl, by omega, by omega, of_not_not hlength, hops⟩
      · cases h
    · cases h
  · rintro ⟨rfl, count, hi, lo, rest, rfl, hpos, hle, hlength, hops⟩
    have hcount : ¬ (count.toNat < 1 ∨ 16 < count.toNat) := by omega
    simp only [parseBundle, ne_eq, not_true_eq_false, if_false, if_neg hcount, hlength, hops]

/-- The two bytes of the number that two bytes make. -/
theorem bytesOf16_append (hi lo : Byte) : bytesOf16 (hi ++ lo) = [hi, lo] := by
  rw [bytesOf16, BitVec.extractLsb'_append_eq_left, BitVec.extractLsb'_append_eq_right]

theorem toBytes_length (b : Bundle) : b.toBytes.length = (b.ops.flatMap OpRec.toBytes).length + 4 := rfl

/-- At most 16 records of at most 17 bytes each. -/
theorem records_length_le {b : Bundle} (h : b.wf = true) : (b.ops.flatMap OpRec.toBytes).length ≤ 272 := by
  obtain ⟨-, hcount, hparams⟩ := (bundleWf_iff b).1 h
  have hle : (b.ops.flatMap OpRec.toBytes).length ≤ b.ops.length * 17 :=
    length_flatMap_le fun c hc => Nat.add_le_add_right (hparams c hc) 2
  omega

/-- A frame accepted is laid out as R151 gives. -/
theorem parseBundle_layout {bytes : List Byte} {stray : Nat} {b : Bundle} (h : parseBundle bytes stray = .ok b) :
    bytes = b.toBytes := by
  obtain ⟨-, count, hi, lo, rest, rfl, -, -, hlength, hops⟩ := parseBundle_eq_ok_iff.1 h
  have hcount : BitVec.ofNat 8 b.ops.length = count := by
    rw [(parseRecords_lawful hops).1, BitVec.ofNat_toNat, BitVec.setWidth_eq]
  have hbody := parseRecords_layout hops
  have hsize : BitVec.ofNat 16 (rest.length + 4) = hi ++ lo :=
    BitVec.eq_of_toNat_eq (by rw [BitVec.toNat_ofNat, ← Nat.mod_eq_of_lt (hi ++ lo).isLt, hlength]; rfl)
  rw [Bundle.toBytes, ← hbody, hcount, hsize, bytesOf16_append]
  rfl

/-- The bytes of a bundle that a frame can carry are accepted as it. -/
theorem parseBundle_toBytes {b : Bundle} (h : b.wf = true) : parseBundle b.toBytes 0 = .ok b := by
  obtain ⟨hpos, hcount, hparams⟩ := (bundleWf_iff b).1 h
  have hbody := records_length_le h
  have hops : (BitVec.ofNat 8 b.ops.length).toNat = b.ops.length := Nat.mod_eq_of_lt (by omega)
  refine parseBundle_eq_ok_iff.2 ⟨rfl, _, _, _, _, rfl, by omega, by omega, ?_, ?_⟩
  · exact (congrArg BitVec.toNat (bytes_append _)).trans
      ((Nat.mod_eq_of_lt (by omega)).trans (toBytes_length b).symm)
  · rw [hops]
    exact parseRecords_flatMap hparams

/-- Settles O6: what is accepted is well formed and laid out as R151 gives, and such a layout is read back. -/
theorem frameIsBundleLayout : Obligations.FrameIsBundleLayout := by
  intro bytes stray b
  constructor
  · intro h
    exact ⟨(parseBundle_eq_ok_iff.1 h).1, parseBundle_wf h, parseBundle_layout h⟩
  · rintro ⟨rfl, hwf, rfl⟩
    exact parseBundle_toBytes hwf

end Sys2Proof.BundleLayoutProofs
end

section
/-! PROOFS. The control port: what a read shifts out (R143), READ RESPONSE (R147), the attention bits (R150), READ
PORT STATUS (R149, R152), SET QUEUE THRESHOLD (R148), and how a transaction is read from its bytes (R143). -/

namespace Sys2Proof.PortProofs

open Sys2Proof Sys2Proof.Machine Sys2Proof.GlideProofs Sys2Proof.TapProofs Sys2Proof.DeskProofs

/-! ## What a read shifts out (R143) -/

@[simp] theorem readOut_length (n : Nat) (bytes : List Byte) : (readOut n bytes).length = n := by
  simp only [readOut, zeros, List.length_append, List.length_take, List.length_replicate]
  omega

theorem getElem?_readOut {n i : Nat} {bytes : List Byte} {b : Byte} (hi : i < n) (hb : bytes[i]? = some b) :
    (readOut n bytes)[i]? = some b := by
  obtain ⟨hlt, -⟩ := List.getElem?_eq_some_iff.1 hb
  have hshifted : i < (bytes.take n).length := by
    rw [List.length_take]
    omega
  rw [readOut, List.getElem?_append_left hshifted, List.getElem?_take_of_lt hi, hb]

theorem getElem?_readOut_beyond {n i : Nat} {bytes : List Byte} (hi : i < n) (hend : bytes.length ≤ i) :
    (readOut n bytes)[i]? = some 0 := by
  have htake : (bytes.take n).length = bytes.length := by
    rw [List.length_take]
    omega
  rw [readOut, List.getElem?_append_right (by omega), htake, zeros,
    List.getElem?_replicate_of_lt (by omega)]

/-- What an image shows in a byte, SDO shows one byte later, where the read goes that far. -/
theorem shows_readOut {n i : Nat} {c m v : Byte} {bytes : List Byte} (hi : i + 1 ≤ n) (h : shows bytes i m v) :
    shows (c :: readOut n bytes) (i + 1) m v := by
  obtain ⟨b, hb, hv⟩ := h
  exact ⟨b, getElem?_readOut hi hb, hv⟩

/-! ## Changes of a slot -/

/-- A change of a slot made under a condition that does not read the record. -/
theorem modSlot_if (s : State) (d : Slot) (p : Prop) [Decidable p] (f : SlotRec → SlotRec) :
    s.modSlot d (fun r => if p then f r else r) = if p then s.modSlot d f else s := by
  split
  · rfl
  · exact congrArg (fun slots => { s with slots }) (Table.set_get ..)

/-! ## READ RESPONSE (R147) -/

/-- A read that takes all of the oldest response removes it; the empty-response marker is no response. -/
theorem execReadResponse_eq (d : Slot) (n : Nat) (s : State) : execReadResponse d n s =
    .next ((s.shiftOut (readOut n (s.slot d).oldest)).modSlot d fun r =>
      if (s.slot d).oldest.length ≤ n then { r with responses := r.responses.drop 1 } else r) := by
  rw [modSlot_if]
  rfl

theorem oldest_of_nil {r : SlotRec} (h : r.responses = []) : r.oldest = [0, 0, 0, 4] := by
  rw [SlotRec.oldest, h]

theorem oldest_of_cons {r : SlotRec} {x : Response} {rest : List Response} (h : r.responses = x :: rest) :
    r.oldest = x.toBytes := by
  rw [SlotRec.oldest, h]

/-- Settles O8: by whether there is a response. -/
theorem readResponseShiftsOldest : Obligations.ReadResponseShiftsOldest := by
  intro s d n
  refine ⟨_, execReadResponse_eq d n s, rfl, fun c hc => State.modSlot_slot_ne _ _ hc, rfl, rfl, rfl, rfl, rfl, ?_⟩
  rw [State.modSlot_slot_self, State.modSlot_port, State.shiftOut_sdo, State.shiftOut_slot]
  cases hresponses : (s.slot d).responses with
  | nil =>
    rw [oldest_of_nil hresponses]
    refine ⟨?_, rfl⟩
    split
    · rw [List.drop_nil, ← hresponses]
    · rfl
  | cons x rest =>
    rw [oldest_of_cons hresponses]
    exact ⟨rfl, rfl⟩

/-! ## The bytes of the port status (R152) -/

/-- The first byte of a slot's entry: the lengths of its queues, and ROOM. -/
def queueByte (r : SlotRec) : Byte := fields [(r.requests.length, 4), (r.responses.length, 1), (r.room.toNat, 0)]

/-- The second byte of a slot's entry, of which bit 3 is not stated: its state, its flags, its threshold. -/
def flagsByte (r : SlotRec) : Byte :=
  fields [(r.state.code, 6), (r.overrun.toNat, 5), (r.contributes.toNat, 4), (r.threshold, 0)]

theorem slotEntry_eq (r : SlotRec) : slotEntry r = [stated (queueByte r), partly 0xF7 (flagsByte r)] := rfl

theorem queueByte_shows {r : SlotRec} (hreq : r.requests.length ≤ 8) (hres : r.responses.length ≤ 4) :
    queueByte r &&& 0xF0 = BitVec.ofNat 8 (16 * r.requests.length) ∧
    queueByte r &&& 0x0E = BitVec.ofNat 8 (2 * r.responses.length) ∧
    queueByte r &&& 0x01 = if r.requests.length ≤ r.threshold then 1 else 0 := by
  have hbyte : ∀ (p : Fin 9) (q : Fin 5) (room : Bool), let b := fields [(p.val, 4), (q.val, 1), (room.toNat, 0)]
      b &&& 0xF0 = BitVec.ofNat 8 (16 * p.val) ∧ b &&& 0x0E = BitVec.ofNat 8 (2 * q.val) ∧
      b &&& 0x01 = if room then 1 else 0 := by decide
  obtain ⟨hp, hq, hroom⟩ := hbyte ⟨r.requests.length, by omega⟩ ⟨r.responses.length, by omega⟩ r.room
  refine ⟨hp, hq, hroom.trans ?_⟩
  simp only [SlotRec.room, decide_eq_true_eq]

theorem flagsByte_shows {r : SlotRec} (h : r.threshold ≤ 7) :
    (flagsByte r &&& 0xC0 = match r.state with
      | .closed => 0x00
      | .opened => 0x40
      | .absent => 0x80) ∧
    (flagsByte r &&& 0x20 = if r.overrun then 0x20 else 0) ∧
    (flagsByte r &&& 0x10 = if r.contributes then 0x10 else 0) ∧
    flagsByte r &&& 0x07 = BitVec.ofNat 8 r.threshold := by
  have hbyte (q : DeskState) : ∀ (overrun contributes : Bool) (threshold : Fin 8),
      let b := fields [(q.code, 6), (overrun.toNat, 5), (contributes.toNat, 4), (threshold.val, 0)]
      (b &&& 0xC0 = match q with
        | .closed => 0x00
        | .opened => 0x40
        | .absent => 0x80) ∧
      (b &&& 0x20 = if overrun then 0x20 else 0) ∧ (b &&& 0x10 = if contributes then 0x10 else 0) ∧
      b &&& 0x07 = BitVec.ofNat 8 threshold.val := by
    cases q <;> decide
  exact hbyte r.state r.overrun r.contributes ⟨r.threshold, by omega⟩

/-- The attention bit of a slot's entry. -/
theorem flagsByte_attention {r : SlotRec} (h : r.threshold ≤ 7) : (flagsByte r).getLsbD 4 = r.contributes := by
  obtain ⟨-, -, hbit, -⟩ := flagsByte_shows h
  have hand := congrArg (BitVec.getLsbD · 4) hbit
  cases hc : r.contributes <;> simpa [hc] using hand

/-- The second byte of the image: the last-frame outcome and its slot. -/
def frameByte (p : Port) : Byte := fields [(p.lastOutcome.code, 4), (p.lastSlot.toNat, 0)]

theorem frameByte_shows (p : Port) : frameByte p &&& 0x70 = BitVec.ofNat 8 (16 * p.lastOutcome.code) ∧
    frameByte p &&& 0x07 = p.lastSlot.setWidth 8 := by
  have hbyte (o : FrameOutcome) : ∀ d : BitVec 3, let b := fields [(o.code, 4), (d.toNat, 0)]
      b &&& 0x70 = BitVec.ofNat 8 (16 * o.code) ∧ b &&& 0x07 = d.setWidth 8 := by
    cases o <;> decide
  exact hbyte p.lastOutcome p.lastSlot

/-! ## The image of the port status (R149) -/

/-- Two bytes for each of a list's members stand in its order. -/
theorem getElem?_flatMap_pair {α β : Type} (f g : α → β) (l : List α) (i : Nat) :
    (l.flatMap fun x => [f x, g x])[2 * i]? = l[i]?.map f ∧
    (l.flatMap fun x => [f x, g x])[2 * i + 1]? = l[i]?.map g := by
  induction l generalizing i with
  | nil => exact ⟨rfl, rfl⟩
  | cons x l ih =>
    cases i with
    | zero => exact ⟨rfl, rfl⟩
    | succ i => exact ih i

theorem getElem?_data {α : Type} {n : Nat} (t : Table α n) (i : Fin n) : t.data[i.val]? = some (t.get i) :=
  List.getElem?_eq_getElem _

theorem portImage_length (s : State) : (portImage s).length = 14 := by
  simp [portImage, slotEntry_eq, List.length_flatMap, s.slots.size]

theorem portImage_entry (s : State) (d : Slot) :
    (portImage s)[2 * d.val + 2]? = some (stated (queueByte (s.slot d))) ∧
    (portImage s)[2 * d.val + 3]? = some (partly 0xF7 (flagsByte (s.slot d))) := by
  obtain ⟨hfirst, hsecond⟩ := getElem?_flatMap_pair (fun r => stated (queueByte r))
    (fun r => partly 0xF7 (flagsByte r)) s.slots.data d.val
  rw [getElem?_data] at hfirst hsecond
  exact ⟨hfirst, hsecond⟩

section Read
variable (s : State) (n : Nat)

/-- What READ PORT STATUS shifts out after the summary byte. -/
def statusRead : List Byte := readOut n (fillImage s.freeCount (portImage s))

/-- READ PORT STATUS leaves all but SDO, the error flag, the overrun flags and the count of free values. -/
theorem execReadPortStatus_eq : execReadPortStatus n s = .next { s with
    port := { s.port with sdo := s.summaryByte :: statusRead s n, error := s.port.error && n == 0 }
    freeCount := s.freeCount + (portImage s).length
    slots := .ofFn fun d =>
      { s.slot d with overrun := (s.slot d).overrun && decide (n < 2 * d.val + 4) } } := rfl

variable {s n}

/-- SDO shows what the image states in its byte `i`. -/
theorem statusRead_shows {i : Nat} {mask byte m v : Byte} (hi : i + 1 ≤ n)
    (hb : (portImage s)[i]? = some ⟨mask, byte⟩) (hm : m &&& mask = m) (hv : byte &&& m = v) :
    shows (s.summaryByte :: statusRead s n) (i + 1) m v :=
  shows_readOut hi (fillImage_shows hb hm hv _)

end Read

/-- A flag that a read of enough bytes clears. -/
theorem and_decide_lt (flag : Bool) (n bound : Nat) :
    (flag && decide (n < bound)) = if bound ≤ n then false else flag := by
  split
  · rw [decide_eq_false (by omega), Bool.and_false]
  · rw [decide_eq_true (by omega), Bool.and_true]

/-- Settles O10: each field stands in one byte of the image, and the image in SDO as far as it was shifted out. -/
theorem readPortStatusShowsAndClears : Obligations.ReadPortStatusShowsAndClears := by
  intro s n hbounds
  have herror : (s.port.error && n == 0) = if 1 ≤ n then false else s.port.error := by
    rw [← and_decide_lt, Bool.beq_eq_decide_eq]
    simp only [Nat.lt_one_iff]
  refine ⟨_, execReadPortStatus_eq s n, rfl, rfl, rfl, rfl, rfl, rfl, herror, fun d => ?_,
    congrArg (· + 1) (readOut_length n _), rfl, fun hn => getElem?_readOut hn rfl, fun hn => ?_, fun d hn => ?_,
    fun d hn => ?_, fun i hi hn => ?_⟩
  · rw [State.slot, Table.get_ofFn, and_decide_lt]
  · obtain ⟨houtcome, hslot⟩ := frameByte_shows s.port
    exact ⟨statusRead_shows hn rfl (by decide) houtcome, statusRead_shows hn rfl (by decide) hslot⟩
  · obtain ⟨hreq, hres, -⟩ := hbounds d
    obtain ⟨hentry, -⟩ := portImage_entry s d
    obtain ⟨hrequests, hresponses, hroom⟩ := queueByte_shows hreq hres
    exact ⟨statusRead_shows hn hentry (by decide) hrequests, statusRead_shows hn hentry (by decide) hresponses,
      statusRead_shows hn hentry (by decide) hroom⟩
  · obtain ⟨-, -, hbound⟩ := hbounds d
    obtain ⟨-, hentry⟩ := portImage_entry s d
    obtain ⟨hstate, hoverrun, hattention, hthreshold⟩ := flagsByte_shows hbound
    exact ⟨statusRead_shows hn hentry (by decide) hstate, statusRead_shows hn hentry (by decide) hoverrun,
      statusRead_shows hn hentry (by decide) hattention, statusRead_shows hn hentry (by decide) hthreshold⟩
  · obtain ⟨j, rfl⟩ : ∃ j, i = j + 1 := ⟨i - 1, by omega⟩
    refine getElem?_readOut_beyond (by omega) ?_
    rw [fillImage_length, portImage_length]
    omega

/-! ## The attention bits (R150) -/

/-- Bit `i` of the summary byte is place `i` of its list: the slots' contributions, the executor, the error flag. -/
theorem summaryByte_getLsbD (s : State) {i : Nat} (hi : i < 8) : s.summaryByte.getLsbD i =
    (s.slots.data.map SlotRec.contributes ++ [s.executor.run.isSome, s.port.error])[i]?.getD false :=
  byteOfBits_getLsbD _ hi

theorem summaryByte_slot (s : State) (d : Slot) : s.summaryByte.getLsbD d.val = (s.slot d).contributes := by
  rw [summaryByte_getLsbD s (by omega), List.getElem?_append_left (by rw [List.length_map, s.slots.size]; omega),
    List.getElem?_map, getElem?_data]
  rfl

/-- The bits above the slots'. -/
theorem summaryByte_above (s : State) {i : Nat} (hi : 6 + i < 8) :
    s.summaryByte.getLsbD (6 + i) = [s.executor.run.isSome, s.port.error][i]?.getD false := by
  have hlen : (s.slots.data.map SlotRec.contributes).length = 6 := by rw [List.length_map, s.slots.size]
  rw [summaryByte_getLsbD s hi, List.getElem?_append_right (by omega), hlen, Nat.add_sub_cancel_left]

theorem attnLow_iff (s : State) : s.attnLow = true ↔ ∃ d, (s.slot d).contributes = true := by
  rw [State.attnLow, table_data, List.any_map, List.any_eq_true]
  exact ⟨fun ⟨d, _, hd⟩ => ⟨d, hd⟩, fun ⟨d, hd⟩ => ⟨d, List.mem_finRange d, hd⟩⟩

/-- Settles O12: the summary byte's list of bits, and a slot's own bit in its entry. -/
theorem attentionBitsAndAttn : Obligations.AttentionBitsAndAttn := by
  intro s
  refine ⟨summaryByte_slot s, summaryByte_above s (i := 0) (by decide), summaryByte_above s (i := 1) (by decide),
    fun d h => ⟨_, _, slotEntry_eq _, (by decide : (0xF7 : Byte).getLsbD 4 = true), flagsByte_attention h⟩, ?_⟩
  simp only [attnLow_iff, summaryByte_slot]

/-! ## SET QUEUE THRESHOLD (R148) -/

/-- SDO after the command byte is as long as what came in. -/
theorem thresholdOut_length (r : SlotRec) (n : Nat) : (thresholdOut r n).length = n := by
  rw [thresholdOut, List.length_take, List.length_cons, List.length_replicate]
  omega

/-- A transaction without a value byte sets the last-frame error flag. -/
theorem execSetQueueThreshold_nil (d : Slot) (s : State) :
    execSetQueueThreshold d [] s = .next { s with port := { s.port with sdo := [s.summaryByte], error := true } } :=
  rfl

/-- The value byte is judged with the slot's state; SDO is an image that states the present threshold only. -/
theorem execSetQueueThreshold_cons (d : Slot) (v : Byte) (rest : List Byte) (s : State) :
    execSetQueueThreshold d (v :: rest) s = .next
      (((s.takeImage (thresholdOut (s.slot d) (rest.length + 1))).1.shiftOut
          (fillImage s.freeCount (thresholdOut (s.slot d) (rest.length + 1)))).modSlot d fun r =>
        if v.toNat ≤ 7 ∧ (s.slot d).state ≠ .closed then { r with threshold := v.toNat } else r) := by
  have hlive : (s.slot d).live = true ∧ v.toNat ≤ 7 ↔ v.toNat ≤ 7 ∧ (s.slot d).state ≠ .closed := by
    rw [live_iff, and_comm]
  rw [modSlot_if]
  exact congrArg Host.Outcome.next (if_congr hlive rfl rfl)

/-! ## Ignored transactions (R143) -/

theorem ignorable_iff (c : Byte) : ignorable c = true ↔
    c.toNat / 16 = 0 ∨ 4 < c.toNat / 16 ∨ (6 ≤ c.toNat % 8 ∧ c.toNat / 16 ≠ 3) := by
  simp only [ignorable, Bool.or_eq_true, Bool.and_eq_true, beq_iff_eq, bne_iff_ne, decide_eq_true_eq, or_assoc]
  rfl

/-- An ignorable command byte counts as a malformed frame where its code is WRITE BUNDLE's. -/
theorem execIgnoredTransaction_some {c : Byte} (h : ignorable c = true) (n : Nat) (s : State) :
    execIgnoredTransaction (some c) n s = .next { s with port := { s.port with
      error := true
      lastOutcome := if c.toNat / 16 = 1 then .malformed else s.port.lastOutcome
      lastSlot := if c.toNat / 16 = 1 then c.setWidth 3 else s.port.lastSlot
      sdo := s.summaryByte :: List.replicate n 0 } } := by
  unfold execIgnoredTransaction
  dsimp only
  rw [if_pos h, commandCode]
  by_cases hcode : c.toNat / 16 = 1
  · simp only [hcode, if_true]
    rfl
  · simp only [hcode, if_false]
    rfl

/-- A command byte that names another row's transaction ignores nothing (log entry 8). -/
theorem execIgnoredTransaction_of_not {c : Byte} (h : ¬ ignorable c = true) (n : Nat) (s : State) :
    execIgnoredTransaction (some c) n s = .next s := by
  unfold execIgnoredTransaction
  dsimp only
  rw [if_neg h]

/-! ## The command byte (R143) -/

theorem commandCode_eq (c : Byte) : commandCode c = (c.extractLsb' 4 4).toNat := by
  rw [commandCode, BitVec.extractLsb'_toNat, Nat.shiftRight_eq_div_pow]
  have := c.isLt
  omega

theorem slotField_eq (c : Byte) : slotField c = (c.extractLsb' 0 3).toNat := by
  rw [slotField, BitVec.extractLsb'_toNat, Nat.shiftRight_zero]

theorem commandSlot_of_eq {c : Byte} {d : Slot} (h : slotField c = d.val) : commandSlot c = some d := by
  rw [commandSlot, dif_pos (h ▸ d.isLt)]
  exact congrArg some (Fin.ext h)

theorem commandSlot_of_le {c : Byte} (h : 6 ≤ slotField c) : commandSlot c = none :=
  dif_neg (Nat.not_lt.2 h)

section Reading
variable {c : Byte} (rest : List Byte) (stray : Fin 8)

/-- Codes 1, 2 and 4 name the slot of bits 2..0. -/
theorem readTransaction_of_slot {d : Slot} (h : slotField c = d.val) :
    (commandCode c = 1 → readTransaction (c :: rest) stray = .writeBundle d rest stray) ∧
    (commandCode c = 2 → readTransaction (c :: rest) stray = .readResponse d rest.length) ∧
    (commandCode c = 4 → readTransaction (c :: rest) stray = .setQueueThreshold d rest) := by
  have hslot := commandSlot_of_eq h
  refine ⟨fun hcode => ?_, fun hcode => ?_, fun hcode => ?_⟩
  all_goals simp only [readTransaction, hcode, hslot]

/-- READ PORT STATUS disregards the slot field. -/
theorem readTransaction_status (h : commandCode c = 3) :
    readTransaction (c :: rest) stray = .readPortStatus rest.length := by
  simp only [readTransaction, h]

/-- Codes that name nothing, and slot fields 6 and 7 where the code uses the field. -/
theorem readTransaction_ignored
    (h : commandCode c = 0 ∨ 4 < commandCode c ∨ (6 ≤ slotField c ∧ commandCode c ≠ 3)) :
    readTransaction (c :: rest) stray = .ignoredTransaction (some c) rest.length := by
  unfold readTransaction
  dsimp only
  split
  case h_5 => rfl
  case h_3 hcode => omega
  all_goals
    rename_i hcode hslot
    have hfield : ¬ 6 ≤ slotField c := fun hle => by rw [commandSlot_of_le hle] at hslot; cases hslot
    omega

end Reading

/-- On an empty queue a transaction is the command that runs next (log entry 22). -/
theorem step_receive {s : State} (h : s.pending = []) (bytes : List Byte) (stray : Fin 8) :
    step (s.receive bytes stray) = exec (readTransaction bytes stray) s := by
  have hqueue : (s.receive bytes stray).pending = [readTransaction bytes stray] := by
    rw [State.receive, h]
    rfl
  rw [step, hqueue]
  change exec _ { s with pending := [] } = _
  rw [← h]

/-- Settles O11: the value byte, the ignored transactions by their command byte, and the reading of that byte. -/
theorem thresholdAndIgnoredTransactions : Obligations.ThresholdAndIgnoredTransactions := by
  refine ⟨fun s d bytes => ?_, fun s cmd n h => ?_, fun s c n hlo hhi hnamed => ?_, fun _ => rfl,
    fun c rest stray => ?_, fun s bytes stray h => step_receive h bytes stray⟩
  · cases bytes with
    | nil =>
      exact ⟨_, execSetQueueThreshold_nil d s, rfl, fun _ _ => rfl, rfl, rfl, rfl, rfl, rfl, rfl, rfl, rfl, rfl⟩
    | cons v rest =>
      refine ⟨_, execSetQueueThreshold_cons d v rest s, rfl, fun c hc => State.modSlot_slot_ne _ _ hc, rfl, rfl,
        rfl, rfl, rfl, ?_, rfl, rfl, rfl, State.modSlot_slot_self ..⟩
      exact congrArg (· + 1) ((fillImage_length ..).trans (thresholdOut_length ..))
  · cases cmd with
    | none => rfl
    | some c =>
      refine (execIgnoredTransaction_some ((ignorable_iff c).2 (h c rfl)) n s).trans ?_
      simp only [Option.any_some, beq_iff_eq]
  · refine execIgnoredTransaction_of_not ?_ n s
    rw [ignorable_iff]
    omega
  · rw [← commandCode_eq, ← slotField_eq]
    exact ⟨fun _ hslot => readTransaction_of_slot rest stray hslot, readTransaction_status rest stray,
      readTransaction_ignored rest stray⟩

end Sys2Proof.PortProofs
end

section
/-! PROOFS. How a law of the inputs is kept by every step. The events that an operation or a command brings to one
input are listed once, with what else changes inputs or desks; a law that passes through each of these passes
through every step. -/

namespace Sys2Proof.StepProofs

open Sys2Proof Sys2Proof.Machine Sys2Proof.TapProofs Sys2Proof.GlideProofs Sys2Proof.SlotProofs
  Sys2Proof.FrameProofs

/-! ## The events of one input -/

/-- SETTLE TIMER EXPIRY at its input (R16). -/
def settleExpiryAt (_ : Env) (e : Ev) : Ev :=
  if e.inp.seq = .settling ∧ isDue e.inp.settleLeft then e.mod Inp.startUnmuting else e

/-- WINDOW EXPIRY at its input (R98). -/
def windowExpiryAt (_ : Env) (e : Ev) : Ev :=
  if isDue e.inp.guard.timer then
    e.mod fun x => { x with guard := { x.guard with count := 0, timer := none } }
  else e

/-- The events that the commands and the operations of a bundle bring to an input. -/
inductive InputEvent
  | openTap (d : Slot) (level : Option (BitVec 16))
  | closeTap (d : Slot)
  | setLevel (d : Slot) (relative : Bool) (v : BitVec 16)
  | setTapMute (d : Slot) (on : Bool)
  | claim (d : Slot) (force : Bool)
  | release (d : Slot)
  | setGain (d : Slot) (relative : Bool) (v : Byte) (rate : Option Byte)
  | stopGlide (d : Slot)
  | request (d : Slot) (value : FrontValue)
  | recheck (d : Slot)
  | configureInput (c : InputConfig)
  | bundleEnd
  | ack
  | fail
  | muteRampEnd
  | settleExpiry
  | unmuteRampEnd
  | stepTimer
  | clip
  | windowExpiry
  | leave (d : Slot)
  | retire (d : Slot)

/-- What the event does at its input. -/
def InputEvent.run : InputEvent → Env → Ev → Ev
  | .openTap d level => openTapAt d level
  | .closeTap d => closeTapAt d
  | .setLevel d relative v => setLevelAt d relative v
  | .setTapMute d on => setTapMuteAt d on
  | .claim d force => claimAt d force
  | .release d => releaseAt d
  | .setGain d relative v rate => setGainAt d relative v rate
  | .stopGlide d => stopGlideAt d
  | .request d value => requestAt d value
  | .recheck d => recheckAt d
  | .configureInput c => configureInputAt c
  | .bundleEnd => bundleEndAt
  | .ack => ackAt
  | .fail => failAt
  | .muteRampEnd => muteRampEndAt
  | .settleExpiry => settleExpiryAt
  | .unmuteRampEnd => unmuteRampEndAt
  | .stepTimer => stepTimerAt
  | .clip => clipAt
  | .windowExpiry => windowExpiryAt
  | .leave d => fun _ e => e.leave d
  | .retire d => fun _ e => e.retire d

/-! ## What leaves the inputs as they are -/

/-- A slot that was OPEN is OPEN, with the same rank. -/
def DeskKept (r q : SlotRec) : Prop := r.state = .opened → q.state = .opened ∧ q.rank = r.rank

theorem DeskKept.refl (r : SlotRec) : DeskKept r r := fun h => ⟨h, rfl⟩

theorem DeskKept.of_same {r q : SlotRec} (hstate : q.state = r.state) (hrank : q.rank = r.rank) :
    DeskKept r q := fun h => ⟨hstate.trans h, hrank⟩

/-- A slot that was not OPEN bears on no owner and on no claim queue. -/
theorem DeskKept.of_not_opened {r q : SlotRec} (h : r.state ≠ .opened) : DeskKept r q := fun ho => absurd ho h

theorem DeskKept.of_notices {r q : SlotRec} (h : r.sameButNotices q) : DeskKept r q := by
  rw [h]
  exact .of_same rfl rfl

theorem DeskKept.trans {r q p : SlotRec} (h : DeskKept r q) (h' : DeskKept q p) : DeskKept r p := by
  intro ho
  obtain ⟨hstate, hrank⟩ := h ho
  obtain ⟨hstate', hrank'⟩ := h' hstate
  exact ⟨hstate', hrank'.trans hrank⟩

/-- The inputs are as they were, and every slot that was OPEN is OPEN with its rank. -/
structure InputsLeft (s t : State) : Prop where
  inputs : t.inputs = s.inputs
  desks : ∀ d, DeskKept (s.slot d) (t.slot d)

section Left
variable {s : State}

theorem InputsLeft.of_slots {t : State} (hi : t.inputs = s.inputs) (hs : t.slots = s.slots) : InputsLeft s t :=
  ⟨hi, fun d => by rw [State.slot, State.slot, hs]; exact .refl _⟩

theorem InputsLeft.trans {t u : State} (h : InputsLeft s t) (h' : InputsLeft t u) : InputsLeft s u :=
  ⟨h'.inputs.trans h.inputs, fun d => (h.desks d).trans (h'.desks d)⟩

theorem inputsLeft_modSlot {d : Slot} {f : SlotRec → SlotRec} (hf : DeskKept (s.slot d) (f (s.slot d))) :
    InputsLeft s (s.modSlot d f) := by
  refine ⟨rfl, fun c => ?_⟩
  by_cases hc : c = d
  · subst hc
    rwa [State.modSlot_slot_self]
  · rw [State.modSlot_slot_ne s f hc]
    exact .refl _

theorem inputsLeft_configureDeskOne (rank : Option Byte) (perms : Option Perms) (timeout : Option Byte)
    (d : Slot) : InputsLeft s (configureDeskOne rank perms timeout d s).state := by
  unfold configureDeskOne
  split
  · rename_i h
    exact inputsLeft_modSlot (.of_not_opened (by rw [h.1]; nofun))
  · exact .of_slots rfl rfl

theorem inputsLeft_openDeskOne (d : Slot) : InputsLeft s (openDeskOne d s).state := by
  unfold openDeskOne
  split
  · rename_i h
    have hclosed : (s.slot d).state ≠ .opened := by rw [h.1]; nofun
    exact inputsLeft_modSlot (f := fun r => { r.reload with state := .opened }) (.of_not_opened hclosed)
  · exact .of_slots rfl rfl

theorem inputsLeft_takeBundle (d : Slot) : InputsLeft s (s.takeBundle d) := by
  unfold State.takeBundle
  split
  · exact .of_slots rfl rfl
  · rename_i rest _
    exact (inputsLeft_modSlot (f := fun r => { r with requests := rest }) (.of_same rfl rfl)).trans
      (.of_slots rfl rfl)

theorem deskKept_accept (d : Slot) (b : Bundle) (r : SlotRec) : DeskKept r (r.accept d b) := by
  rw [accept_eq]
  exact fun h => ⟨by simp [h], rfl⟩

theorem deskKept_refuse (r : SlotRec) : DeskKept r r.refuse :=
  .of_notices (r := { r with overrun := true }) (SlotRec.raise_sameButNotices ..)

theorem inputsLeft_judgeFrame (d : Slot) (b : Except FrameProblem Bundle) : InputsLeft s (s.judgeFrame d b) := by
  unfold State.judgeFrame
  dsimp only
  split
  · exact (inputsLeft_modSlot (f := SlotRec.accept d _) fun h => deskKept_accept d _ _ h).trans
      (.of_slots rfl rfl)
  · exact (inputsLeft_modSlot (f := SlotRec.refuse) (deskKept_refuse _)).trans (.of_slots rfl rfl)
  · exact .of_slots rfl rfl

theorem inputsLeft_readPortStatus (s : State) (n : Nat) : ∀ t, execReadPortStatus n s = .next t → InputsLeft s t := by
  rintro _ ⟨⟩
  refine ⟨rfl, fun d => ?_⟩
  rw [State.slot, State.slot, Table.get_ofFn]
  exact .of_same rfl rfl

end Left

/-! ## The laws that every step keeps -/

/-- Where the outcome is a next state, that state meets `Q`. -/
def NextMeets (Q : State → Prop) (o : Host.Outcome State Fault Refusal) : Prop := ∀ t, o = .next t → Q t

theorem nextMeets {Q : State → Prop} {t : State} (h : Q t) : NextMeets Q (.next t) := by
  rintro _ ⟨⟩
  exact h

/-- A law of the state that passes through every event of an input, through whatever else changes an input, and
through what changes the desks. -/
structure StepLaw (Q : State → Prop) : Prop where
  left : ∀ s t, InputsLeft s t → Q s → Q t
  event : ∀ s (i : InputEvent) k, Q s → Q (s.atInput k i.run)
  sample : ∀ s k w, Q s → Q (s.setInp k ((s.inp k).sample s.sys.rate96 w))
  released : ∀ s k d n, Q s → Q (s.setInp k ((s.inp k).modTap d (Tap.releaseNth n)))
  late : ∀ s k, Q s → Q (s.setInp k { s.inp k with unanswered := (s.inp k).unanswered - 1 })
  closeSlot : ∀ s d, Q s → Q (s.closeSlot d)
  absence : ∀ s d, Q s → Q (s.absence d)
  controlReset : ∀ s, Q s → Q s.controlReset
  powerOn : ∀ s, NextMeets Q (execPowerOnReset s)
  tick : ∀ s, Q s → Q s.tick

namespace StepLaw

variable {Q : State → Prop} {s : State}

/-! ### What the commands share -/

theorem setRun (hQ : StepLaw Q) (r : Option Run) (hs : Q s) : Q (s.setRun r) :=
  hQ.left s _ (.of_slots rfl rfl) hs

theorem gather (hQ : StepLaw Q) (r : Run) (x : OpResult) (hs : Q s) : Q (s.gather r x) := hQ.setRun _ hs

theorem slots (hQ : StepLaw Q) (hs : Q s) {t : State} (hi : t.inputs = s.inputs) (ht : t.slots = s.slots) : Q t :=
  hQ.left _ _ (.of_slots hi ht) hs

theorem modSlot (hQ : StepLaw Q) (hs : Q s) {d : Slot} {f : SlotRec → SlotRec}
    (hf : DeskKept (s.slot d) (f (s.slot d))) : Q (s.modSlot d f) := hQ.left _ _ (inputsLeft_modSlot hf) hs

theorem atInputs (hQ : StepLaw Q) (hs : Q s) (p : Inp → Bool) (i : InputEvent) : Q (s.atInputs p i.run) :=
  State.atInputs_kept (P := Q) p _ (fun t k => hQ.event t i k) s hs

theorem applyKind (hQ : StepLaw Q) (hs : Q s) {kind : Byte} {body : Run → Op → State}
    (hbody : ∀ r o, Q (body r o)) : NextMeets Q (.next (s.applyKind kind body)) :=
  nextMeets (State.applyKind_kept kind hs (fun _ q => hQ.setRun q) fun r o _ => hbody r o)

theorem onPattern (hQ : StepLaw Q) (hs : Q s) {r : Run} {p : Pattern} {exact : Bool}
    {one : Input → State → Applied} (hone : ∀ k, Q (one k s).state) : Q (s.onPattern r p exact one) :=
  State.onPattern_kept p exact hs (fun _ q => hQ.setRun q) hone

theorem onEvent (hQ : StepLaw Q) (hs : Q s) {r : Run} {p : Pattern} {exact : Bool} (i : InputEvent) :
    Q (s.onPattern r p exact (applyEvent i.run)) := hQ.onPattern hs fun k => hQ.event s i k hs

theorem onDesk (hQ : StepLaw Q) (hs : Q s) {r : Run} {d : BitVec 3} {one : Slot → State → Applied}
    (hone : ∀ c, Q (one c s).state) : Q (s.onDesk r d one) := by
  unfold State.onDesk
  split
  · exact hQ.gather _ _ hs
  · exact hQ.gather _ _ (hone _)

/-! ### One application -/

theorem clearMark (hQ : StepLaw Q) (hs : Q s) (d : Slot) (k : Input) : Q (s.modSlot d (SlotRec.clearMark k)) :=
  hQ.modSlot hs (.of_same rfl rfl)

theorem closeTapOne (hQ : StepLaw Q) (hs : Q s) (d : Slot) (k : Input) : Q (closeTapOne d k s).state := by
  have hclosed := hQ.event s (.closeTap d) k hs
  unfold Machine.closeTapOne
  dsimp only
  split
  · exact hQ.clearMark hclosed d k
  · exact hclosed

theorem readTapOne (hQ : StepLaw Q) (hs : Q s) (d : Slot) (k : Input) : Q (readTapOne d k s).state := by
  unfold Machine.readTapOne
  split
  · exact hs
  · exact hQ.slots hs rfl rfl

theorem readInputOne (hQ : StepLaw Q) (hs : Q s) (d : Slot) (k : Input) : Q (readInputOne d k s).state :=
  hQ.clearMark (s := (s.takeImage (inputImage s k)).1) (hQ.slots hs rfl rfl) d k

theorem closeDeskOne (hQ : StepLaw Q) (hs : Q s) (d : Slot) : Q (closeDeskOne d s).state := by
  unfold Machine.closeDeskOne
  split
  · exact hs
  split
  · exact hs
  · exact hQ.closeSlot s d hs

/-! ### The operations of a bundle -/

/-- Every operation is an event at its input, or leaves the inputs as they are, or closes a desk. -/
theorem exec_operation (hQ : StepLaw Q) (hs : Q s) {i : Instr} {kind : Byte} (hi : commandKind i = some kind) :
    NextMeets Q (exec i s) := by
  cases i with
  | openTap =>
    refine hQ.applyKind hs fun r o => ?_
    split
    · exact hQ.onEvent hs (.openTap _ _)
    · exact hs
  | closeTap =>
    refine hQ.applyKind hs fun r o => ?_
    split
    · exact hQ.onPattern hs (hQ.closeTapOne hs _)
    · exact hs
  | setLevel =>
    refine hQ.applyKind hs fun r o => ?_
    split
    · exact hQ.onEvent hs (.setLevel _ _ _)
    · exact hs
  | setTapMute =>
    refine hQ.applyKind hs fun r o => ?_
    split
    · exact hQ.onEvent hs (.setTapMute _ _)
    · exact hs
  | readTap =>
    refine hQ.applyKind hs fun r o => ?_
    split
    · exact hQ.onPattern hs (hQ.readTapOne hs _)
    · exact hs
  | claim =>
    refine hQ.applyKind hs fun r o => ?_
    split
    · exact hQ.onEvent hs (.claim _ _)
    · exact hs
  | release =>
    refine hQ.applyKind hs fun r o => ?_
    split
    · exact hQ.onEvent hs (.release _)
    · exact hs
  | setGain =>
    refine hQ.applyKind hs fun r o => ?_
    split
    · exact hQ.onEvent hs (.setGain _ _ _ _)
    · exact hs
  | stopGlide =>
    refine hQ.applyKind hs fun r o => ?_
    split
    · exact hQ.onEvent hs (.stopGlide _)
    · exact hs
  | setPhantom | setMode =>
    refine hQ.applyKind hs fun r o => ?_
    split
    · exact hQ.onEvent hs (.request _ _)
    · exact hs
  | recheckFrontEnd =>
    refine hQ.applyKind hs fun r o => ?_
    split
    · exact hQ.onEvent hs (.recheck _)
    · exact hs
  | readInput =>
    refine hQ.applyKind hs fun r o => ?_
    split
    · exact hQ.onPattern hs (hQ.readInputOne hs _)
    · exact hs
  | clearMarks =>
    refine hQ.applyKind hs fun r o => ?_
    split
    · exact hQ.onPattern hs (hQ.clearMark hs _)
    · exact hs
  | setNoticeEnables | clearNotices =>
    refine hQ.applyKind hs fun r o => ?_
    split
    · exact hQ.gather _ _ (hQ.modSlot hs (.of_same rfl rfl))
    · exact hs
  | configureInput =>
    refine hQ.applyKind hs fun r o => ?_
    split
    · exact hQ.onEvent hs (.configureInput _)
    · exact hs
  | configureDesk =>
    refine hQ.applyKind hs fun r o => ?_
    split
    · exact hQ.onDesk hs fun d => hQ.left _ _ (inputsLeft_configureDeskOne _ _ _ d) hs
    · exact hs
  | openDesk =>
    refine hQ.applyKind hs fun r o => ?_
    split
    · exact hQ.onDesk hs fun d => hQ.left _ _ (inputsLeft_openDeskOne d) hs
    · exact hs
  | closeDesk =>
    refine hQ.applyKind hs fun r o => ?_
    split
    · exact hQ.onDesk hs (hQ.closeDeskOne hs)
    · exact hs
  | readDesk =>
    refine hQ.applyKind hs fun r o => ?_
    split
    · exact hQ.onDesk hs fun _ => hQ.slots hs rfl rfl
    · exact hs
  | readMarks | keepalive | setTiming | readSystemStatus | clearSupply | controlReset =>
    refine hQ.applyKind hs fun r o => ?_
    split
    · exact hQ.slots hs rfl rfl
    · exact hs
  | _ => cases hi

/-! ### The other commands -/

theorem execReadResponse (hQ : StepLaw Q) (hs : Q s) (d : Slot) (n : Nat) :
    NextMeets Q (execReadResponse d n s) := by
  have hshifted : Q (s.shiftOut (readOut n (s.slot d).oldest)) := hQ.slots hs rfl rfl
  refine nextMeets ?_
  split
  · exact hQ.modSlot hshifted (.of_same rfl rfl)
  · exact hshifted

theorem execSetQueueThreshold (hQ : StepLaw Q) (hs : Q s) (d : Slot) (bytes : List Byte) :
    NextMeets Q (execSetQueueThreshold d bytes s) := by
  refine nextMeets ?_
  split
  · exact hQ.slots hs rfl rfl
  split
  · rename_i v _ _
    refine hQ.modSlot (f := fun r => { r with threshold := v.toNat }) ?_ (.of_same rfl rfl)
    exact hQ.slots hs rfl rfl
  · exact hQ.slots hs rfl rfl

theorem execIgnoredTransaction (hQ : StepLaw Q) (hs : Q s) (cmd : Option Byte) (n : Nat) :
    NextMeets Q (execIgnoredTransaction cmd n s) := by
  refine nextMeets ?_
  split
  · exact hQ.slots hs rfl rfl
  split
  · dsimp only
    split
    · exact hQ.slots hs rfl rfl
    · exact hQ.slots hs rfl rfl
  · exact hs

theorem execBundleTake (hQ : StepLaw Q) (hs : Q s) : NextMeets Q (execBundleTake s) := by
  refine nextMeets ?_
  split
  · exact hQ.left _ _ (inputsLeft_takeBundle _) hs
  · exact hs

theorem endBundle (hQ : StepLaw Q) (hs : Q s) (r : Run) : Q (s.endBundle r) := by
  have hresponded : Q (respond s r) := hQ.modSlot hs (.of_same rfl rfl)
  have hglides := hQ.atInputs hresponded Inp.bundleGlide .bundleEnd
  refine hQ.setRun none ?_
  split
  · exact hQ.controlReset _ hglides
  · exact hglides

theorem execBundleEnd (hQ : StepLaw Q) (hs : Q s) : NextMeets Q (execBundleEnd s) := by
  refine nextMeets ?_
  split
  · split
    · exact hQ.endBundle hs _
    · exact hs
  · exact hs

theorem execCrstAssert (hQ : StepLaw Q) (hs : Q s) : NextMeets Q (execCrstAssert s) := by
  refine nextMeets ?_
  split
  · exact hQ.slots hs rfl rfl
  · exact hQ.controlReset s hs

theorem execPsagAssert (hQ : StepLaw Q) (hs : Q s) : NextMeets Q (execPsagAssert s) := by
  refine nextMeets ?_
  split
  · exact hs
  · refine hQ.modSlot ?_ (.of_notices (SlotRec.raise_sameButNotices ..))
    exact hQ.slots hs rfl rfl

theorem execFrontEndAck (hQ : StepLaw Q) (hs : Q s) (k : Input) : NextMeets Q (execFrontEndAck k s) := by
  have hjudged : Q (s.ackJudged k) := hQ.slots hs (State.ackJudged_inputs s k) (State.ackJudged_slots s k)
  cases hlate : s.ackLate k with
  | true =>
    rw [execFrontEndAck_late hlate, ← State.ackJudged_inp s k]
    exact nextMeets (hQ.late _ k hjudged)
  | false =>
    rw [execFrontEndAck_taken hlate]
    exact nextMeets (hQ.event _ .ack k hjudged)

theorem execPresenceTimerExpiry (hQ : StepLaw Q) (hs : Q s) (d : Slot) :
    NextMeets Q (execPresenceTimerExpiry d s) := by
  refine nextMeets ?_
  split
  · exact hQ.absence s d hs
  · exact hs

theorem execGlideDonePulseEnd (hQ : StepLaw Q) (hs : Q s) (d : Slot) :
    NextMeets Q (execGlideDonePulseEnd d s) := by
  refine nextMeets ?_
  split
  · exact hQ.modSlot hs (.of_same rfl rfl)
  · exact hs

theorem execUnknownOperationKind (hQ : StepLaw Q) (hs : Q s) : NextMeets Q (execUnknownOperationKind s) := by
  refine nextMeets ?_
  split
  · split
    · exact hs
    · exact hQ.gather _ _ hs
  · exact hs

/-! ### Every step -/

/-- Every command keeps the law. -/
theorem exec_kept (hQ : StepLaw Q) (hs : Q s) (i : Instr) : NextMeets Q (exec i s) := by
  cases i with
  | writeBundle d bytes stray =>
    exact nextMeets (hQ.left _ _ (inputsLeft_judgeFrame ..) (hQ.slots hs rfl rfl))
  | readResponse d n => exact hQ.execReadResponse hs d n
  | readPortStatus n => exact fun t ht => hQ.left _ _ (inputsLeft_readPortStatus s n t ht) hs
  | setQueueThreshold d bytes => exact hQ.execSetQueueThreshold hs d bytes
  | ignoredTransaction cmd n => exact hQ.execIgnoredTransaction hs cmd n
  | bundleTake => exact hQ.execBundleTake hs
  | bundleEnd => exact hQ.execBundleEnd hs
  | powerOnReset => exact hQ.powerOn s
  | crstAssert => exact hQ.execCrstAssert hs
  | psagAssert => exact hQ.execPsagAssert hs
  | psagDeassert => exact nextMeets (hQ.slots hs rfl rfl)
  | frontEndAck k => exact hQ.execFrontEndAck hs k
  | writeFail k => exact nextMeets (hQ.event s .fail k hs)
  | muteRampEnd k => exact nextMeets (hQ.event s .muteRampEnd k hs)
  | settleTimerExpiry k => exact nextMeets (hQ.event s .settleExpiry k hs)
  | unmuteRampEnd k => exact nextMeets (hQ.event s .unmuteRampEnd k hs)
  | stepTimerExpiry k => exact nextMeets (hQ.event s .stepTimer k hs)
  | clipIndication k => exact nextMeets (hQ.event s .clip k hs)
  | windowExpiry k => exact nextMeets (hQ.event s .windowExpiry k hs)
  | presenceTimerExpiry d => exact hQ.execPresenceTimerExpiry hs d
  | glideDonePulseEnd d => exact hQ.execGlideDonePulseEnd hs d
  | alignedChangeRelease d k n => exact nextMeets (hQ.released s k d n hs)
  | converterSample k v => exact nextMeets (hQ.sample s k v.toInt hs)
  | unknownOperationKind => exact hQ.execUnknownOperationKind hs
  | _ => exact hQ.exec_operation hs rfl

theorem step_kept (hQ : StepLaw Q) {t : State} (hs : Q s) (h : step s = .next t) : Q t := by
  unfold step at h
  split at h
  · cases h
    exact hQ.tick s hs
  · rename_i i rest _
    exact hQ.exec_kept (s := { s with pending := rest }) (hQ.slots hs rfl rfl) i t h

end StepLaw

/-! ## Laws of one input -/

/-- A law of the record of one input that passes through every event, whatever the rest of the part is. -/
structure InputLaw (P : Inp → Prop) : Prop where
  event : ∀ (i : InputEvent) v x, P x → P (i.run v ⟨x, [], .done⟩).inp
  sample : ∀ rate96 w x, P x → P (x.sample rate96 w)
  released : ∀ d n x, P x → P (x.modTap d (Tap.releaseNth n))
  late : ∀ n x, P x → P { x with unanswered := n }
  controlReset : ∀ x, P x → P x.controlReset
  powerOn : ∀ rate96 n, P { Inp.reset rate96 with unanswered := n }
  tick : ∀ x, P x → P x.tick

/-- Every input meets `P`. -/
def Everywhere (P : Inp → Prop) (s : State) : Prop := ∀ k, P (s.inp k)

section Everywhere
variable {P : Inp → Prop} {s : State}

theorem everywhere_setInp (h : Everywhere P s) (k : Input) {x : Inp} (hx : P x) : Everywhere P (s.setInp k x) := by
  intro j
  rw [State.setInp_inp]
  split
  · exact hx
  · exact h j

theorem everywhere_map {f : Inp → Inp} (hf : ∀ x, P x → P (f x)) (h : Everywhere P s) {t : State}
    (ht : t.inputs = s.inputs.map f) : Everywhere P t := by
  intro k
  rw [State.inp, ht, Table.get_map]
  exact hf _ (h k)

theorem everywhere_atInput (hP : InputLaw P) (h : Everywhere P s) (i : InputEvent) (k : Input) :
    Everywhere P (s.atInput k i.run) := by
  intro j
  by_cases hj : j = k
  · subst hj
    rw [State.atInput, State.commit_inp_self]
    exact hP.event i _ _ (h j)
  · rw [State.atInput, State.commit_inp_ne s _ hj]
    exact h j

theorem everywhere_atInputs (hP : InputLaw P) (h : Everywhere P s) (p : Inp → Bool) (i : InputEvent) :
    Everywhere P (s.atInputs p i.run) :=
  State.atInputs_kept (P := Everywhere P) p _ (fun _ k ht => everywhere_atInput hP ht i k) s h

/-- A law of one input that passes through every event is kept by every step, at every input. -/
theorem InputLaw.stepLaw (hP : InputLaw P) : StepLaw (Everywhere P) where
  left s t hleft h k := by
    rw [State.inp, hleft.inputs]
    exact h k
  event s i k h := everywhere_atInput hP h i k
  sample s k w h := everywhere_setInp h k (hP.sample _ _ _ (h k))
  released s k d n h := everywhere_setInp h k (hP.released _ _ _ (h k))
  late s k h := everywhere_setInp h k (hP.late _ _ (h k))
  closeSlot s d h k := by
    rw [State.closeSlot, State.modSlot_inp]
    exact everywhere_atInputs hP h _ (.retire d) k
  absence s d h k := by
    rw [State.absence, State.modSlot_inp]
    exact everywhere_atInputs hP h _ (.leave d) k
  controlReset s h := everywhere_map hP.controlReset h rfl
  powerOn s := by
    refine nextMeets fun k => ?_
    rw [State.inp, Table.get_map]
    exact hP.powerOn _ _
  tick s h := everywhere_map hP.tick h rfl

end Everywhere

end Sys2Proof.StepProofs
end

section
/-! PROOFS. What the command path and the glide engine can do to an input (R5, R83 to R88): a glide that goes on is
the old one but for its state, step and timer, a write that is issued is the one its group stands for, and the rest
of the input is as it was. -/

namespace Sys2Proof.PathProofs

open Sys2Proof Sys2Proof.Machine Sys2Proof.GlideProofs

/-! ## Moving on -/

/-- The write that a waiting group of input `x` stands for when it is issued (R5, R8, R15, R20, R83). -/
def Issuable (x : Inp) (o : Outstanding) : Prop :=
  (∃ g ∈ x.glide, g.target ≠ x.gain ∧ o = ⟨.gain (stepGain x.gain g.target), .step g.source, ackTimeout⟩) ∨
  (∃ w ∈ x.switchingWrite, o = ⟨w, .switching, ackTimeout⟩) ∨
  o = ⟨x.recheckMode, .recheck 0, ackTimeout⟩ ∨
  (.startUp ∈ x.waiting ∧ o = ⟨.mode .off 0, .startUp 0, ackTimeout⟩)

/-- Input `y` is `x` after its path has moved on and its glide has gone on or ended. -/
structure PathMoved (x y : Inp) : Prop where
  frame : y = { x with outstanding := y.outstanding, waiting := y.waiting, glide := y.glide }
  glide : ∀ h ∈ y.glide, ∃ g ∈ x.glide, h.target = g.target ∧ h.source = g.source ∧ h.staged = g.staged
  outstanding : ∀ o ∈ y.outstanding, o ∈ x.outstanding ∨ Issuable x o
  waiting : .startUp ∈ y.waiting → .startUp ∈ x.waiting

theorem PathMoved.refl (x : Inp) : PathMoved x x :=
  ⟨rfl, fun g hg => ⟨g, hg, rfl, rfl, rfl⟩, fun _ => .inl, id⟩

/-- What a path's moving on leaves as it was. -/
theorem PathMoved.field {x y : Inp} (h : PathMoved x y) {α : Type} (f : Inp → α)
    (hf : ∀ o w g, f { x with outstanding := o, waiting := w, glide := g } = f x) : f y = f x := by
  rw [h.frame]
  exact hf _ _ _

/-- What a group stands for does not change as the path moves on, but for a glide that is no more. -/
theorem PathMoved.issuable {x y : Inp} (h : PathMoved x y) {o : Outstanding} (ho : Issuable y o) :
    Issuable x o := by
  have hgain : y.gain = x.gain := h.field _ fun _ _ _ => rfl
  have hswitching : y.switchingWrite = x.switchingWrite := h.field _ fun _ _ _ => rfl
  have hrecheck : y.recheckMode = x.recheckMode := h.field _ fun _ _ _ => rfl
  rcases ho with ⟨g', hg', hne, rfl⟩ | ⟨w, hw, rfl⟩ | rfl | ⟨hw, rfl⟩
  · obtain ⟨g, hg, htarget, hsource, -⟩ := h.glide g' hg'
    rw [htarget, hgain] at hne
    exact .inl ⟨g, hg, hne, by rw [htarget, hsource, hgain]⟩
  · exact .inr (.inl ⟨w, hswitching ▸ hw, rfl⟩)
  · exact .inr (.inr (.inl (by rw [hrecheck])))
  · exact .inr (.inr (.inr ⟨h.waiting hw, rfl⟩))

theorem PathMoved.trans {x y z : Inp} (h : PathMoved x y) (h' : PathMoved y z) : PathMoved x z where
  frame := by rw [h'.frame, h.frame]
  glide g'' hg'' := by
    obtain ⟨g', hg', htarget', hsource', hstaged'⟩ := h'.glide g'' hg''
    obtain ⟨g, hg, htarget, hsource, hstaged⟩ := h.glide g' hg'
    exact ⟨g, hg, htarget'.trans htarget, hsource'.trans hsource, hstaged'.trans hstaged⟩
  outstanding o ho := (h'.outstanding o ho).elim (h.outstanding o) fun hi => .inr (h.issuable hi)
  waiting hw := h.waiting (h'.waiting hw)

/-! ## What moves a path on -/

section Moves
variable {x : Inp} {v : Env} {e : Ev}

theorem ite_pathMoved {p : Prop} [Decidable p] {a b : Ev} (ha : p → PathMoved x a.inp)
    (hb : ¬ p → PathMoved x b.inp) : PathMoved x (if p then a else b).inp := by
  split
  · exact ha ‹_›
  · exact hb ‹_›

theorem PathMoved.endGlide (h : PathMoved x e.inp) : PathMoved x (e.endGlide v).inp := by
  cases hg : e.inp.glide with
  | none => rwa [endGlide_of_none hg]
  | some g =>
    rw [endGlide_of_glide hg]
    exact h.trans ⟨rfl, by rintro h ⟨⟩, fun _ => .inl, fun hw => (List.mem_filter.1 hw).1⟩

/-- A glide goes on with another state, step or timer. -/
theorem PathMoved.withGlide {y : Inp} (h : PathMoved x y) {g : Glide} (hg : y.glide = some g)
    (state : GlideState) (step : StepState) (timer : Option Nat) :
    PathMoved x { y with glide := some { g with state := state, step := step, timer := timer } } :=
  h.trans ⟨rfl, by rintro h ⟨⟩; exact ⟨g, hg, rfl, rfl, rfl⟩, fun _ => .inl, id⟩

/-- A write that its group stands for is issued, with the rest of a list left to wait. -/
theorem PathMoved.issued {y : Inp} (h : PathMoved x y) {o : Outstanding} (ho : Issuable x o)
    {rest : List Group} (hrest : .startUp ∈ rest → .startUp ∈ x.waiting) :
    PathMoved x { y with outstanding := some o, waiting := rest } :=
  ⟨congrArg (fun z : Inp => { z with outstanding := some o, waiting := rest }) h.frame, h.glide,
    by rintro _ ⟨⟩; exact .inr ho, hrest⟩

/-- The oldest group of a list is issued, and the rest of the list waits. -/
theorem PathMoved.issueOldest (gs : List Group) (h : PathMoved x e.inp)
    (hgs : .startUp ∈ gs → .startUp ∈ x.waiting) : PathMoved x (e.issueOldest v gs).inp := by
  induction gs generalizing e with
  | nil => exact ⟨congrArg (fun y : Inp => { y with waiting := [] }) h.frame, h.glide, h.outstanding, nofun⟩
  | cons a rest ih =>
    have hrest : .startUp ∈ rest → .startUp ∈ x.waiting := fun hr => hgs (List.mem_cons_of_mem a hr)
    cases a with
    | step =>
      unfold Ev.issueOldest
      split
      · rename_i g hg
        refine ite_pathMoved (fun _ => ih h.endGlide hrest) fun hne => ?_
        exact (h.withGlide hg g.state .outstanding g.timer).issued (h.issuable (.inl ⟨g, hg, hne, rfl⟩)) hrest
      · exact ih h hrest
    | switching =>
      unfold Ev.issueOldest
      split
      · rename_i w hw
        exact h.issued (h.issuable (.inr (.inl ⟨w, hw, rfl⟩))) hrest
      · exact ih h hrest
    | recheck => exact h.issued (h.issuable (.inr (.inr (.inl rfl)))) hrest
    | startUp => exact h.issued (.inr (.inr (.inr ⟨hgs (.head _), rfl⟩))) hrest

theorem PathMoved.pump (h : PathMoved x e.inp) : PathMoved x (e.pump v).inp :=
  ite_pathMoved (fun _ => h) fun _ => h.issueOldest _ h.waiting

theorem PathMoved.join (h : PathMoved x e.inp) {g : Group} (hg : g ≠ .startUp) :
    PathMoved x (e.join v g).inp := by
  have hjoined : PathMoved e.inp { e.inp with waiting := e.inp.waiting ++ [g] } :=
    ⟨rfl, fun h hh => ⟨h, hh, rfl, rfl, rfl⟩, fun _ => .inl, fun hw => by simpa [hg.symm] using hw⟩
  exact PathMoved.pump (h.trans hjoined)

theorem PathMoved.readyStep (h : PathMoved x e.inp) : PathMoved x (e.readyStep v).inp := by
  unfold Ev.readyStep
  split
  · rename_i g hg
    exact ite_pathMoved (fun _ => PathMoved.join (h.withGlide hg g.state .ready g.timer) (by decide)) fun _ => h
  · exact h

theorem PathMoved.stepAcked (h : PathMoved x e.inp) : PathMoved x (e.stepAcked v).inp := by
  unfold Ev.stepAcked
  split
  · exact h
  · rename_i g hg
    have hended := h.withGlide hg g.state .absent g.timer
    refine ite_pathMoved (fun _ => ?_) fun _ => h
    refine ite_pathMoved (fun _ => PathMoved.endGlide hended) fun _ => ?_
    refine ite_pathMoved (fun _ => hended) fun _ => ?_
    exact ite_pathMoved (fun _ => PathMoved.readyStep hended) fun _ => h.withGlide hg g.state .absent (some g.rate)

theorem PathMoved.resumeGlide (h : PathMoved x e.inp) : PathMoved x (e.resumeGlide v).inp := by
  unfold Ev.resumeGlide
  split
  · exact h
  · rename_i g hg
    exact ite_pathMoved (fun _ => PathMoved.readyStep (h.withGlide hg g.state g.step none)) fun _ => h

theorem PathMoved.startGlide (h : PathMoved x e.inp) {g : Glide} (hg : e.inp.glide = some g) :
    PathMoved x (e.startGlide v g).inp :=
  ite_pathMoved (fun _ => h.endGlide) fun _ => PathMoved.readyStep (h.withGlide hg .stepping g.step g.timer)

theorem PathMoved.stepTimerAt (h : PathMoved x e.inp) : PathMoved x (stepTimerAt v e).inp := by
  unfold Machine.stepTimerAt
  split
  · rename_i g hg
    exact ite_pathMoved (fun _ => PathMoved.readyStep (h.withGlide hg g.state g.step none)) fun _ => h
  · exact h

end Moves

/-! ## Laws that a path's moving on keeps -/

/-- A law of an input that is kept as its path moves on. -/
def PassesMoves (P : Inp → Prop) : Prop := ∀ x y, PathMoved x y → P x → P y

namespace PassesMoves

variable {P : Inp → Prop} {v : Env} {e : Ev}

theorem endGlide (hP : PassesMoves P) (h : P e.inp) : P (e.endGlide v).inp :=
  hP _ _ (PathMoved.endGlide (.refl e.inp)) h

theorem pump (hP : PassesMoves P) (h : P e.inp) : P (e.pump v).inp := hP _ _ (PathMoved.pump (.refl e.inp)) h

theorem join (hP : PassesMoves P) (h : P e.inp) {g : Group} (hg : g ≠ .startUp) : P (e.join v g).inp :=
  hP _ _ (PathMoved.join (.refl e.inp) hg) h

theorem readyStep (hP : PassesMoves P) (h : P e.inp) : P (e.readyStep v).inp :=
  hP _ _ (PathMoved.readyStep (.refl e.inp)) h

theorem stepAcked (hP : PassesMoves P) (h : P e.inp) : P (e.stepAcked v).inp :=
  hP _ _ (PathMoved.stepAcked (.refl e.inp)) h

theorem resumeGlide (hP : PassesMoves P) (h : P e.inp) : P (e.resumeGlide v).inp :=
  hP _ _ (PathMoved.resumeGlide (.refl e.inp)) h

theorem startGlide (hP : PassesMoves P) (h : P e.inp) {g : Glide} (hg : e.inp.glide = some g) :
    P (e.startGlide v g).inp := hP _ _ (PathMoved.startGlide (.refl e.inp) hg) h

theorem stepTimerAt (hP : PassesMoves P) (h : P e.inp) : P (stepTimerAt v e).inp :=
  hP _ _ (PathMoved.stepTimerAt (.refl e.inp)) h

end PassesMoves

/-! ## A failed write (R7, R10, R91) -/

/-- The input whose outstanding write `o` has failed: in FAULT, its recheck and its glide ended, and a sequence that
had not switched HALTED (R7, R10, R21, R91). -/
def failed (o : Outstanding) (x : Inp) : Inp :=
  let left := match x.glide with
    | some _ => x.waiting.filter (· != .step)
    | none => x.waiting
  let halts := x.seq = .muting ∨ x.seq = .switching
  { x with
    outstanding := none
    unanswered := x.unanswered + 1
    recheck := if o.issuer.isRecheck then false else x.recheck
    glide := none
    fault := true
    seq := if halts then .halted else x.seq
    waiting := if halts then left.filter (· != .switching) else left }

/-- What a failure raises: GLIDE_DONE for the glide that ends, and FRONTEND (R10, R91). -/
def failureFor (v : Env) (x : Inp) : List Signal :=
  (match x.glide with
    | some g => glideDoneFor v x g.source
    | none => []) ++ x.owner.toList.map (.raise .frontend) ++ v.observers.map (.raise .frontend)

theorem failAt_of_none {v : Env} {e : Ev} (h : e.inp.outstanding = none) : failAt v e = e := by
  simp only [failAt, h]

theorem failAt_early {v : Env} {e : Ev} {o : Outstanding} (ho : e.inp.outstanding = some o) (hl : o.left ≠ 0) :
    failAt v e = e := by
  simp only [failAt, ho]
  exact if_neg hl

/-- The end of the glide and the sequencer's halt, put together. -/
theorem enterFault_eq (v : Env) (x : Inp) (o : Outstanding) :
    Ev.enterFault v ⟨{ x with
      outstanding := none
      unanswered := x.unanswered + 1
      recheck := if o.issuer.isRecheck then false else x.recheck }, [], .done⟩ =
    ⟨failed o x, failureFor v x, .done⟩ := by
  cases hg : x.glide with
  | none =>
    unfold Ev.enterFault failed failureFor
    rw [endGlide_of_none rfl, hg]
    rfl
  | some g =>
    unfold Ev.enterFault failed failureFor
    rw [endGlide_of_glide rfl, hg]
    rfl

theorem failAt_due {v : Env} {x : Inp} {o : Outstanding} (ho : x.outstanding = some o) (hl : o.left = 0) :
    failAt v ⟨x, [], .done⟩ = Ev.pump v ⟨failed o x, failureFor v x, .done⟩ := by
  have hrecheck : (match o.issuer with
      | .recheck _ => false
      | _ => x.recheck) = if o.issuer.isRecheck then false else x.recheck := by
    cases o.issuer <;> rfl
  rw [← enterFault_eq, ← hrecheck]
  simp only [failAt, ho, if_pos hl]
  rfl

end Sys2Proof.PathProofs
end

section
/-! PROOFS. Gains in the range of their mode (R2, R71, R77), as a law that every step keeps. -/

namespace Sys2Proof.GainProofs

open Sys2Proof Sys2Proof.Machine Sys2Proof.TapProofs Sys2Proof.GlideProofs Sys2Proof.StepProofs
  Sys2Proof.PathProofs

/-! ## Glides and writes in range -/

theorem clampGain_le (m : Mode) (w : Int) : clampGain m w ≤ maxGain m := by
  unfold clampGain clamp
  omega

/-- One step toward a target in range stays in range (R83). -/
theorem stepGain_le {gain target top : Nat} (hg : gain ≤ top) (ht : target ≤ top) :
    stepGain gain target ≤ top := by
  unfold stepGain
  split <;> omega

/-- The targets of a glide lie in the range of mode `m` (R71, R77). -/
def GlideFits (m : Mode) (g : Glide) : Prop := g.target ≤ maxGain m ∧ ∀ q ∈ g.staged, q.target ≤ maxGain m

section Range
variable {x y : Inp}

theorem inRange_withGlide (h : x.GainsInRange) {g : Glide} (hg : GlideFits x.mode g) :
    Inp.GainsInRange { x with glide := some g } := by
  obtain ⟨hgain, hout, -⟩ := h
  exact ⟨hgain, hout, by rintro _ ⟨⟩; exact hg⟩

theorem inRange_noGlide (h : x.GainsInRange) : Inp.GainsInRange { x with glide := none } := by
  obtain ⟨hgain, hout, -⟩ := h
  exact ⟨hgain, hout, nofun⟩

theorem inRange_issued (h : x.GainsInRange) {o : Outstanding} (ho : o.write.fits x.mode = true) :
    Inp.GainsInRange { x with outstanding := some o } := by
  obtain ⟨hgain, -, hglide⟩ := h
  exact ⟨hgain, by rintro _ ⟨⟩; exact ho, hglide⟩

theorem recheckMode_fits (h : x.GainsInRange) : x.recheckMode.fits x.mode = true := by
  unfold Inp.recheckMode
  split
  · exact decide_eq_true (clampGain_le _ _)
  · exact decide_eq_true h.1

theorem switchingWrite_fits {w : Write} (hw : w ∈ x.switchingWrite) : w.fits x.mode = true := by
  obtain ⟨c, -, rfl⟩ := Option.map_eq_some_iff.1 hw
  cases c.value with
  | mode m => exact decide_eq_true (clampGain_le m _)
  | phantom on => rfl

/-- Every write that a group stands for carries a gain in range (R15, R20, R83). -/
theorem issuable_fits (h : x.GainsInRange) {o : Outstanding} (ho : Issuable x o) :
    o.write.fits x.mode = true := by
  obtain ⟨hgain, -, hglide⟩ := id h
  rcases ho with ⟨g, hg, -, rfl⟩ | ⟨w, hw, rfl⟩ | rfl | ⟨-, rfl⟩
  · exact decide_eq_true (stepGain_le hgain (hglide g hg).1)
  · exact switchingWrite_fits hw
  · exact recheckMode_fits h
  · exact decide_eq_true (Nat.le_refl 0)

theorem inRange_moves : PassesMoves Inp.GainsInRange := by
  intro x y hm h
  obtain ⟨hgain, hout, hglide⟩ := id h
  have hmode : y.mode = x.mode := hm.field _ fun _ _ _ => rfl
  have hsame : y.gain = x.gain := hm.field _ fun _ _ _ => rfl
  unfold Inp.GainsInRange
  rw [hmode, hsame]
  refine ⟨hgain, fun o ho => (hm.outstanding o ho).elim (hout o) (issuable_fits h), fun g hg => ?_⟩
  obtain ⟨g', hg', htarget, -, hstaged⟩ := hm.glide g hg
  rw [htarget, hstaged]
  exact hglide g' hg'

/-- The fields that the law speaks of. -/
def gainFields (x : Inp) : Mode × Nat × Option Outstanding × Option Glide :=
  (x.mode, x.gain, x.outstanding, x.glide)

theorem inRange_of_fields (h : x.GainsInRange) (hf : gainFields y = gainFields x) : y.GainsInRange := by
  obtain ⟨hmode, hgain, hout, hglide⟩ : y.mode = x.mode ∧ y.gain = x.gain ∧ y.outstanding = x.outstanding ∧
      y.glide = x.glide := by simpa [gainFields] using hf
  unfold Inp.GainsInRange
  rwa [hmode, hgain, hout, hglide]

end Range

/-! ## Gain and glide -/

section Gain
variable {x : Inp} {v : Env} {e : Ev}

theorem inRange_takeTarget (h : x.GainsInRange) {target : Nat} (ht : target ≤ maxGain x.mode) (rate : Nat) :
    (x.takeTarget target rate).GainsInRange := by
  obtain ⟨-, -, hglide⟩ := id h
  unfold Inp.takeTarget
  split
  · split
    · exact h
    · exact inRange_withGlide h ⟨ht, nofun⟩
  · rename_i g hg
    obtain ⟨htarget, hstaged⟩ := hglide g hg
    split
    · split
      · exact inRange_noGlide h
      · exact inRange_withGlide h ⟨ht, hstaged⟩
    · exact inRange_withGlide h ⟨htarget, by rintro _ ⟨⟩; exact ht⟩

/-- The gain that an outstanding step carries lies in range, and so does G. -/
theorem stepCarries_le (h : x.GainsInRange) : x.stepCarries ≤ maxGain x.mode := by
  obtain ⟨hgain, hout, -⟩ := h
  unfold Inp.stepCarries
  split
  · rename_i g _ _ ho
    exact of_decide_eq_true (hout _ ho)
  · exact hgain

theorem inRange_stopGlide (h : e.inp.GainsInRange) : (e.stopGlide v).inp.GainsInRange := by
  obtain ⟨-, -, hglide⟩ := id h
  unfold Ev.stopGlide
  split
  · exact h
  · rename_i g hg
    split
    · exact inRange_withGlide h ⟨stepCarries_le h, nofun⟩
    · have hsource : Inp.GainsInRange { e.inp with glide := some { g with source := .owner } } :=
        inRange_withGlide h (hglide g hg)
      exact inRange_moves.endGlide hsource

theorem inRange_applyRetarget (h : e.inp.GainsInRange) {g : Glide} {q : Retarget} (hg : e.inp.glide = some g)
    (hq : g.staged = some q) : (e.applyRetarget v g q).inp.GainsInRange := by
  obtain ⟨-, -, hglide⟩ := id h
  have hset : Inp.GainsInRange { e.inp with
      glide := some { g with target := q.target, rate := q.rate, source := .owner, staged := none } } :=
    inRange_withGlide h ⟨(hglide g hg).2 q hq, nofun⟩
  unfold Ev.applyRetarget
  dsimp only
  split
  · exact inRange_moves.endGlide hset
  · exact hset

theorem inRange_bundleEnd (h : e.inp.GainsInRange) : (bundleEndAt v e).inp.GainsInRange := by
  unfold bundleEndAt
  split
  · exact h
  · rename_i g hg
    split
    · exact inRange_moves.startGlide h hg
    · exact inRange_applyRetarget h hg ‹_›
    · exact h

/-- The guard's target is at most G (R101). -/
theorem inRange_guardGlide (h : e.inp.GainsInRange) {target : Nat} (ht : target ≤ e.inp.gain) :
    (e.guardGlide v target).inp.GainsInRange := by
  obtain ⟨hgain, -, -⟩ := id h
  have hset (step : StepState) : Inp.GainsInRange { e.inp with
      glide := some ⟨target, 2, .guard, .stepping, step, none, none⟩ } :=
    inRange_withGlide h ⟨Nat.le_trans ht hgain, nofun⟩
  unfold Ev.guardGlide
  extract_lets step e'
  have he : e'.inp.GainsInRange := hset step
  split
  · exact inRange_moves.readyStep he
  · exact he

theorem inRange_threshold (h : e.inp.GainsInRange) : (e.threshold v).inp.GainsInRange := by
  unfold Ev.threshold
  dsimp only
  split
  · refine inRange_guardGlide ?_ (Nat.sub_le ..)
    exact h
  · exact h

theorem inRange_clip (h : e.inp.GainsInRange) : (clipAt v e).inp.GainsInRange := by
  unfold clipAt
  dsimp only
  split
  · split
    · exact inRange_threshold h
    · exact h
  · exact h

/-! ## Ownership -/

theorem captureOwner_fields (x : Inp) : gainFields x.captureOwner = gainFields x := by
  unfold Inp.captureOwner
  split <;> rfl

theorem inRange_handedOver (h : x.GainsInRange) (incoming : Option Slot) :
    (x.handedOver incoming).GainsInRange := by
  have hgiven : (x.captureOwner.giveTo incoming).GainsInRange := by
    refine inRange_of_fields h (Eq.trans ?_ (captureOwner_fields x))
    cases incoming <;> rfl
  obtain ⟨-, -, hglide⟩ := id hgiven
  unfold Inp.handedOver Inp.handOverGlide
  split
  · rename_i g hg
    split
    · exact inRange_noGlide hgiven
    · exact inRange_withGlide hgiven ⟨(hglide g hg).1, nofun⟩
  · exact hgiven

theorem inRange_leave (h : e.inp.GainsInRange) (d : Slot) : (e.leave d).inp.GainsInRange := by
  rw [leave_eq]
  dsimp only
  split
  · exact inRange_handedOver (x := { e.inp with queue := e.inp.queue.tail }) h _
  · exact h

theorem inRange_claim (h : e.inp.GainsInRange) (d : Slot) (force : Bool) :
    (claimAt d force v e).inp.GainsInRange := by
  unfold claimAt
  dsimp only
  split
  · exact h
  split
  · exact h
  split
  · exact h
  split
  · exact inRange_handedOver h _
  split
  · exact h
  split
  · exact inRange_handedOver (x := e.inp.leaveQueue d) h _
  · refine inRange_of_fields h ?_
    rw [Ev.answer_inp, Ev.mod_inp, joinQueue]
    split <;> rfl

theorem inRange_release (h : e.inp.GainsInRange) (d : Slot) : (releaseAt d v e).inp.GainsInRange := by
  unfold releaseAt
  split
  · rw [handOn_eq]
    exact inRange_handedOver (x := { e.inp with queue := e.inp.queue.tail }) h _
  · split <;> exact h

/-! ## The front end -/

/-- A ready step is withdrawn and the glide keeps its targets (R87). -/
theorem inRange_startSequence (h : x.GainsInRange) (value : FrontValue) (d : Slot) :
    (x.startSequence value d).GainsInRange := by
  obtain ⟨hgain, hout, hglide⟩ := h
  refine ⟨hgain, hout, fun g' hg' => ?_⟩
  obtain ⟨g, hg, rfl⟩ := Option.map_eq_some_iff.1 hg'
  split <;> exact hglide g hg

theorem inRange_request (h : e.inp.GainsInRange) (d : Slot) (value : FrontValue) :
    (requestAt d value v e).inp.GainsInRange := by
  unfold requestAt Ev.request
  split
  · exact h
  split
  · exact h
  split
  · split <;> exact h
  split
  · exact h
  · exact inRange_startSequence h value d

/-- After a failure nothing is outstanding, no glide is left, and the path moves on. -/
theorem inRange_fail (h : x.GainsInRange) : (failAt v ⟨x, [], .done⟩).inp.GainsInRange := by
  obtain ⟨hgain, -, -⟩ := id h
  cases ho : x.outstanding with
  | none => rwa [failAt_of_none ho]
  | some o =>
    by_cases hl : o.left = 0
    · have hfailed : (failed o x).GainsInRange := ⟨hgain, nofun, nofun⟩
      rw [failAt_due ho hl]
      exact inRange_moves.pump hfailed
    · rwa [failAt_early ho hl]

theorem inRange_muteRampEnd (h : e.inp.GainsInRange) : (muteRampEndAt v e).inp.GainsInRange := by
  unfold muteRampEndAt
  split
  · split
    · split
      · exact h
      · have hsw : Inp.GainsInRange { e.inp with seq := .switching } := h
        refine inRange_moves.join (g := .switching) ?_ (by decide)
        exact hsw
    · exact h
  · exact h

theorem inRange_recheckRequest (h : e.inp.GainsInRange) (q : Request) :
    (e.recheckRequest v q).inp.GainsInRange := by
  unfold Ev.recheckRequest
  dsimp only
  split
  · exact h
  split
  · exact inRange_startSequence (x := { e.inp with request := none }) h _ _
  · exact h
  · exact h

theorem inRange_unmuteRampEnd (h : e.inp.GainsInRange) : (unmuteRampEndAt v e).inp.GainsInRange := by
  have hresumed {e' : Ev} (h' : e'.inp.GainsInRange) :
      (if e'.inp.seq = .idle then e'.resumeGlide v else e').inp.GainsInRange := by
    split
    · exact inRange_moves.resumeGlide h'
    · exact h'
  unfold unmuteRampEndAt
  dsimp only
  split
  · refine hresumed ?_
    split
    · refine inRange_recheckRequest ?_ _
      exact h
    · exact h
  · exact h

theorem inRange_recheck (h : e.inp.GainsInRange) (d : Slot) : (recheckAt d v e).inp.GainsInRange := by
  unfold recheckAt
  split
  · exact h
  split
  · exact h
  · have hset : Inp.GainsInRange { e.inp with recheck := true } := h
    refine inRange_moves.join (g := .recheck) ?_ (by decide)
    exact hset

/-! ## Acknowledgements -/

/-- The gains lie in range but for a write that is being recorded. -/
def RangeButWrite (x : Inp) : Prop := Inp.GainsInRange { x with outstanding := none }

theorem rangeButWrite_moves : PassesMoves RangeButWrite := by
  rintro x y hm ⟨hgain, -, hglide⟩
  have hmode : y.mode = x.mode := hm.field _ fun _ _ _ => rfl
  have hsame : y.gain = x.gain := hm.field _ fun _ _ _ => rfl
  refine ⟨by rw [hmode, hsame]; exact hgain, nofun, fun g hg => ?_⟩
  obtain ⟨g', hg', htarget, -, hstaged⟩ := hm.glide g hg
  rw [htarget, hstaged, hmode]
  exact hglide g' hg'

/-- The values of a write in range are recorded: only a glide may then lie outside the range, and only where the
mode changed (R6, R71). -/
theorem recorded_inRange (h : x.GainsInRange) {w : Write} (hw : w.fits x.mode = true) :
    (x.record w).gain ≤ maxGain (x.record w).mode ∧
      ((x.record w).mode = x.mode → RangeButWrite (x.record w)) := by
  obtain ⟨hgain, -, hglide⟩ := id h
  cases w with
  | gain g =>
    have hg : g ≤ maxGain x.mode := of_decide_eq_true hw
    exact ⟨hg, fun _ => ⟨hg, nofun, hglide⟩⟩
  | mode m g =>
    have hg : g ≤ maxGain m := of_decide_eq_true hw
    refine ⟨hg, ?_⟩
    rintro rfl
    exact ⟨hg, nofun, hglide⟩
  | phantom on => exact ⟨hgain, fun _ => ⟨hgain, nofun, hglide⟩⟩

theorem recordTracked_fields (align : Nat) (w : Write) (x : Inp) :
    gainFields (x.recordTracked align w) = gainFields (x.record w) := by
  unfold Inp.recordTracked
  dsimp only
  split <;> rfl

/-- A glide's targets clamped to the new mode's highest gain lie in its range (R71, R89). -/
theorem rangeButWrite_clampGlide (hgain : e.inp.gain ≤ maxGain e.inp.mode) :
    RangeButWrite (e.clampGlide v).inp := by
  unfold Ev.clampGlide
  split
  · rename_i hg
    exact ⟨hgain, nofun, by rw [hg]; nofun⟩
  · rename_i g hg
    dsimp only
    split
    · rw [endGlide_of_glide rfl]
      exact ⟨hgain, nofun, nofun⟩
    · refine ⟨hgain, nofun, ?_⟩
      rintro _ ⟨⟩
      refine ⟨Nat.min_le_left .., fun q hq => ?_⟩
      obtain ⟨q, -, rfl⟩ := Option.map_eq_some_iff.1 hq
      exact Nat.min_le_left ..

theorem startSettling_fields (y : Sys) (x : Inp) : gainFields (x.startSettling y) = gainFields x := by
  unfold Inp.startSettling
  split <;> rfl

theorem recheckDone_fields (y : Sys) (x : Inp) : gainFields (x.recheckDone y) = gainFields x := by
  unfold Inp.recheckDone
  dsimp only
  split
  · split
    · rfl
    · exact startSettling_fields ..
  · rfl

theorem rangeButWrite_of_fields (h : RangeButWrite x) (hf : gainFields y = gainFields x) : RangeButWrite y := by
  obtain ⟨hmode, hgain, -, hglide⟩ : y.mode = x.mode ∧ y.gain = x.gain ∧ y.outstanding = x.outstanding ∧
      y.glide = x.glide := by simpa [gainFields] using hf
  unfold RangeButWrite Inp.GainsInRange
  rw [hmode, hgain, hglide]
  exact h

theorem rangeButWrite_toIssuer (h : RangeButWrite e.inp) (i : Issuer) : RangeButWrite (e.toIssuer v i).inp := by
  unfold Ev.toIssuer
  split
  · refine rangeButWrite_moves.stepAcked ?_
    exact h
  · exact rangeButWrite_moves.stepAcked h
  · rw [Ev.mod_inp]
    split
    · exact rangeButWrite_of_fields h (startSettling_fields ..)
    · exact h
  · split
    · exact rangeButWrite_of_fields h (recheckDone_fields ..)
    · exact h
  · exact h

theorem inRange_issueRecheckPhantom (h : e.inp.GainsInRange) : (e.issueRecheckPhantom v).inp.GainsInRange := by
  have hissued (on : Bool) : Inp.GainsInRange { e.inp with
      outstanding := some ⟨.phantom on, .recheck 1, ackTimeout⟩ } := inRange_issued h rfl
  unfold Ev.issueRecheckPhantom
  split
  · split
    · exact hissued _
    · exact hissued _
  · exact hissued _

theorem inRange_moveOn (h : RangeButWrite e.inp) (i : Issuer) : (e.moveOn v i).inp.GainsInRange := by
  unfold Ev.moveOn
  split
  · refine inRange_issueRecheckPhantom ?_
    exact h
  · exact inRange_issued h (decide_eq_true h.1)
  · exact inRange_issued h rfl
  · refine inRange_moves.pump ?_
    exact h

theorem inRange_ack (h : e.inp.GainsInRange) : (ackAt v e).inp.GainsInRange := by
  obtain ⟨-, hout, -⟩ := id h
  unfold ackAt
  split
  · exact h
  · rename_i o ho
    obtain ⟨hgain, hsame⟩ := recorded_inRange h (hout o ho)
    have hfields := recordTracked_fields v.sys.align o.write e.inp
    have hmode : (e.inp.recordTracked v.sys.align o.write).mode = (e.inp.record o.write).mode :=
      congrArg Prod.fst hfields
    have hval : (e.inp.recordTracked v.sys.align o.write).gain = (e.inp.record o.write).gain :=
      congrArg (fun f => f.2.1) hfields
    refine inRange_moveOn (rangeButWrite_toIssuer ?_ _) _
    split
    · rename_i hold
      exact rangeButWrite_of_fields (hsame (hmode.symm.trans hold)) hfields
    · refine rangeButWrite_clampGlide ?_
      rwa [Ev.mod_inp, hmode, hval]

end Gain

/-! ## The law -/

theorem inRange_event (i : InputEvent) (v : Env) {x : Inp} (h : x.GainsInRange) :
    (i.run v ⟨x, [], .done⟩).inp.GainsInRange := by
  cases i with
  | openTap d level =>
    refine inRange_of_fields h ?_
    dsimp only [InputEvent.run]
    unfold openTapAt
    split <;> rfl
  | closeTap d =>
    dsimp only [InputEvent.run]
    unfold closeTapAt
    split
    · exact inRange_leave (e := ⟨x, [], .done⟩) h d
    · exact h
  | setLevel d relative w =>
    refine inRange_of_fields h ?_
    dsimp only [InputEvent.run]
    unfold setLevelAt
    split <;> rfl
  | setTapMute d on =>
    refine inRange_of_fields h ?_
    dsimp only [InputEvent.run]
    unfold setTapMuteAt
    split <;> rfl
  | claim d force => exact inRange_claim h d force
  | release d => exact inRange_release (v := v) h d
  | setGain d relative w rate =>
    dsimp only [InputEvent.run]
    unfold setGainAt
    split
    · exact h
    split
    · exact h
    · exact inRange_takeTarget h (clampGain_le ..) _
  | stopGlide d =>
    dsimp only [InputEvent.run]
    unfold stopGlideAt
    split
    · exact h
    · exact inRange_stopGlide h
  | request d value => exact inRange_request h d value
  | recheck d => exact inRange_recheck h d
  | configureInput c =>
    refine inRange_of_fields h ?_
    dsimp only [InputEvent.run]
    unfold configureInputAt
    split <;> rfl
  | bundleEnd => exact inRange_bundleEnd h
  | ack => exact inRange_ack h
  | fail => exact inRange_fail h
  | muteRampEnd => exact inRange_muteRampEnd h
  | settleExpiry =>
    refine inRange_of_fields h ?_
    dsimp only [InputEvent.run]
    unfold settleExpiryAt
    split <;> rfl
  | unmuteRampEnd => exact inRange_unmuteRampEnd h
  | stepTimer => exact inRange_moves.stepTimerAt h
  | clip => exact inRange_clip h
  | windowExpiry =>
    refine inRange_of_fields h ?_
    dsimp only [InputEvent.run]
    unfold windowExpiryAt
    split <;> rfl
  | leave d => exact inRange_leave (e := ⟨x, [], .done⟩) h d
  | retire d => exact inRange_leave (e := ⟨x, [], .done⟩) h d

theorem inRange_tick {x : Inp} (h : x.GainsInRange) : x.tick.GainsInRange := by
  obtain ⟨hgain, hout, hglide⟩ := h
  refine ⟨hgain, fun o' ho' => ?_, fun g' hg' => ?_⟩
  · obtain ⟨o, ho, rfl⟩ := Option.map_eq_some_iff.1 ho'
    exact hout o ho
  · obtain ⟨g, hg, rfl⟩ := Option.map_eq_some_iff.1 hg'
    exact hglide g hg

theorem inRange_reset (rate96 : Bool) (n : Nat) : Inp.GainsInRange { Inp.reset rate96 with unanswered := n } :=
  ⟨Nat.le_refl 0, by rintro _ ⟨⟩; rfl, nofun⟩

/-- Gains in range are a law of every input. -/
theorem inRange_law : InputLaw Inp.GainsInRange where
  event i v _ h := inRange_event i v h
  sample _ _ _ h := h
  released _ _ _ h := h
  late _ _ h := h
  controlReset x h := 
    inRange_noGlide (x := x.captureOwner) (inRange_of_fields h (captureOwner_fields x))
  powerOn := inRange_reset
  tick _ h := inRange_tick h

end Sys2Proof.GainProofs
end

section
/-! PROOFS. What the events that bear on no tap and on no owner leave as it was: mode, gain, taps, owner and claim
queue. -/

namespace Sys2Proof.HeldProofs

open Sys2Proof Sys2Proof.Machine Sys2Proof.GlideProofs Sys2Proof.StepProofs Sys2Proof.PathProofs

/-! ## The front end's own fields -/

/-- Only the sequencer, the command path, the glide and the fault and recheck fields differ. -/
def FrontMoved (x y : Inp) : Prop :=
  y = { x with
    fault := y.fault, recheck := y.recheck, seq := y.seq, inFlight := y.inFlight, settleLeft := y.settleLeft
    outstanding := y.outstanding, waiting := y.waiting, glide := y.glide, seqGate := y.seqGate }

theorem FrontMoved.refl (x : Inp) : FrontMoved x x := rfl

theorem FrontMoved.trans {x y z : Inp} (h : FrontMoved x y) (h' : FrontMoved y z) : FrontMoved x z := by
  unfold FrontMoved at *
  rw [h', h]

theorem frontMoved_moves (x : Inp) : PassesMoves (FrontMoved x) := by
  intro y z hm h
  refine h.trans ?_
  unfold FrontMoved
  rw [hm.frame]

theorem frontMoved_of_path {x y : Inp} (hm : PathMoved x y) : FrontMoved x y := frontMoved_moves x x y hm rfl

section Ack
variable {x : Inp} {v : Env} {e : Ev}

theorem FrontMoved.clampGlide (h : FrontMoved x e.inp) : FrontMoved x (e.clampGlide v).inp := by
  unfold Ev.clampGlide
  split
  · exact h
  · dsimp only
    split
    · refine (frontMoved_moves x).endGlide ?_
      exact h.trans rfl
    · exact h.trans rfl

theorem frontMoved_startSettling (x : Inp) (y : Sys) : FrontMoved x (x.startSettling y) := by
  unfold Inp.startSettling
  split <;> rfl

theorem frontMoved_recheckDone (x : Inp) (y : Sys) : FrontMoved x (x.recheckDone y) := by
  unfold Inp.recheckDone
  dsimp only
  split
  · split
    · rfl
    · have hcleared : FrontMoved x { x with recheck := false, fault := false } := rfl
      exact hcleared.trans (frontMoved_startSettling ..)
  · rfl

/-- An acknowledgement handed to its issuer changes taps only at a guard step (R68, R84). -/
theorem frontMoved_toIssuer (i : Issuer) :
    FrontMoved (if i = .step .guard then e.inp.raiseOwnerTrim v.sys.align else e.inp) (e.toIssuer v i).inp := by
  cases i with
  | step source =>
    cases source with
    | guard => exact (frontMoved_moves _).stepAcked (e := e.mod (Inp.raiseOwnerTrim v.sys.align)) (.refl _)
    | owner => exact (frontMoved_moves _).stepAcked (.refl _)
  | switching =>
    rw [if_neg nofun, Ev.toIssuer, Ev.mod_inp]
    split
    · exact frontMoved_startSettling ..
    · exact .refl _
  | recheck n =>
    rw [if_neg nofun, Ev.toIssuer]
    split
    · exact frontMoved_recheckDone ..
    · exact .refl _
  | startUp n => exact .refl _

theorem FrontMoved.issueRecheckPhantom (h : FrontMoved x e.inp) : FrontMoved x (e.issueRecheckPhantom v).inp := by
  unfold Ev.issueRecheckPhantom
  split
  · split
    · exact h.trans rfl
    · exact h.trans rfl
  · exact h.trans rfl

theorem FrontMoved.moveOn (h : FrontMoved x e.inp) (i : Issuer) : FrontMoved x (e.moveOn v i).inp := by
  have hdone : FrontMoved x { e.inp with outstanding := none } := h.trans rfl
  unfold Ev.moveOn
  split
  · refine FrontMoved.issueRecheckPhantom ?_
    exact hdone
  · exact h.trans rfl
  · exact h.trans rfl
  · refine (frontMoved_moves x).pump ?_
    exact hdone

end Ack

/-! ## Events that leave what is held as it was -/

/-- Mode and gain, and what the slots hold of the input. -/
def held (x : Inp) : Mode × Nat × Table (Option Tap) 6 × Option Slot × List Slot :=
  (x.mode, x.gain, x.taps, x.owner, x.queue)

theorem held_of_frontMoved {x y : Inp} (h : FrontMoved x y) : held y = held x := by
  unfold FrontMoved at h
  rw [h]
  rfl

/-- Nothing of what is held differs from input `x`. -/
def HeldKept (x y : Inp) : Prop := held y = held x

theorem heldKept_moves (x : Inp) : PassesMoves (HeldKept x) :=
  fun _ _ hm h => (held_of_frontMoved (frontMoved_of_path hm)).trans h

section Quiet
variable {x : Inp} {v : Env} {e : Ev}

theorem heldKept_takeTarget (target rate : Nat) (y : Inp) : HeldKept y (y.takeTarget target rate) := by
  unfold Inp.takeTarget
  split
  · split <;> rfl
  · split
    · split <;> rfl
    · rfl

theorem heldKept_setGain (d : Slot) (relative : Bool) (w : Byte) (rate : Option Byte) :
    HeldKept e.inp (setGainAt d relative w rate v e).inp := by
  unfold setGainAt
  split
  · rfl
  split
  · rfl
  · exact heldKept_takeTarget _ _ e.inp

theorem heldKept_stopGlide (d : Slot) : HeldKept e.inp (stopGlideAt d v e).inp := by
  unfold stopGlideAt Ev.stopGlide
  split
  · rfl
  split
  · rfl
  split
  · rfl
  · refine (heldKept_moves _).endGlide ?_
    rfl

theorem heldKept_request (d : Slot) (value : FrontValue) : HeldKept e.inp (requestAt d value v e).inp := by
  unfold requestAt Ev.request
  split
  · rfl
  split
  · rfl
  split
  · split <;> rfl
  split <;> rfl

theorem heldKept_recheck (d : Slot) : HeldKept e.inp (recheckAt d v e).inp := by
  unfold recheckAt
  split
  · rfl
  split
  · rfl
  · refine (heldKept_moves _).join (g := .recheck) ?_ (by decide)
    rfl

theorem heldKept_applyRetarget (g : Glide) (q : Retarget) : HeldKept e.inp (e.applyRetarget v g q).inp := by
  unfold Ev.applyRetarget
  dsimp only
  split
  · refine (heldKept_moves _).endGlide ?_
    rfl
  · rfl

theorem heldKept_bundleEnd : HeldKept e.inp (bundleEndAt v e).inp := by
  unfold bundleEndAt
  split
  · rfl
  · rename_i g hg
    split
    · exact (heldKept_moves _).startGlide rfl hg
    · exact heldKept_applyRetarget ..
    · rfl

theorem heldKept_failed (o : Outstanding) : HeldKept x (failed o x) := rfl

theorem heldKept_fail : HeldKept x (failAt v ⟨x, [], .done⟩).inp := by
  cases ho : x.outstanding with
  | none => rw [failAt_of_none ho]; rfl
  | some o =>
    by_cases hl : o.left = 0
    · rw [failAt_due ho hl]
      exact (heldKept_moves _).pump (heldKept_failed o)
    · rw [failAt_early ho hl]; rfl

theorem heldKept_muteRampEnd : HeldKept e.inp (muteRampEndAt v e).inp := by
  unfold muteRampEndAt
  split
  · split
    · split
      · rfl
      · refine (heldKept_moves _).join (g := .switching) ?_ (by decide)
        rfl
    · rfl
  · rfl

theorem heldKept_recheckRequest (q : Request) : HeldKept e.inp (e.recheckRequest v q).inp := by
  unfold Ev.recheckRequest
  dsimp only
  split
  · rfl
  split <;> rfl

theorem heldKept_unmuteRampEnd : HeldKept e.inp (unmuteRampEndAt v e).inp := by
  have hresumed {e' : Ev} (h : HeldKept e.inp e'.inp) :
      HeldKept e.inp (if e'.inp.seq = .idle then e'.resumeGlide v else e').inp := by
    split
    · exact (heldKept_moves _).resumeGlide h
    · exact h
  unfold unmuteRampEndAt
  dsimp only
  split
  · refine hresumed ?_
    split
    · exact (heldKept_recheckRequest _).trans rfl
    · rfl
  · rfl

theorem heldKept_guardGlide (target : Nat) : HeldKept e.inp (e.guardGlide v target).inp := by
  unfold Ev.guardGlide
  extract_lets step e'
  split
  · exact (heldKept_moves e.inp).readyStep (e := e') rfl
  · rfl

theorem heldKept_clip : HeldKept e.inp (clipAt v e).inp := by
  unfold clipAt Ev.threshold
  dsimp only
  split
  · split
    · split
      · exact (heldKept_guardGlide _).trans rfl
      · rfl
    · rfl
  · rfl

end Quiet

/-- The events that bear on no tap and on no owner, and that record no acknowledgement. -/
def quiet : InputEvent → Bool
  | .setGain .. | .stopGlide _ | .request .. | .recheck _ | .configureInput _ | .bundleEnd | .fail | .muteRampEnd
  | .settleExpiry | .unmuteRampEnd | .stepTimer | .clip | .windowExpiry => true
  | _ => false

theorem heldKept_of_quiet {i : InputEvent} (hi : quiet i = true) (v : Env) (x : Inp) :
    HeldKept x (i.run v ⟨x, [], .done⟩).inp := by
  cases i with
  | setGain d relative w rate => exact heldKept_setGain (v := v) (e := ⟨x, [], .done⟩) d relative w rate
  | stopGlide d => exact heldKept_stopGlide (e := ⟨x, [], .done⟩) d
  | request d value => exact heldKept_request (e := ⟨x, [], .done⟩) d value
  | recheck d => exact heldKept_recheck (e := ⟨x, [], .done⟩) d
  | configureInput c =>
    dsimp only [InputEvent.run]
    unfold configureInputAt
    split <;> rfl
  | bundleEnd => exact heldKept_bundleEnd (e := ⟨x, [], .done⟩)
  | fail => exact heldKept_fail
  | muteRampEnd => exact heldKept_muteRampEnd (e := ⟨x, [], .done⟩)
  | settleExpiry =>
    dsimp only [InputEvent.run]
    unfold settleExpiryAt
    split <;> rfl
  | unmuteRampEnd => exact heldKept_unmuteRampEnd (e := ⟨x, [], .done⟩)
  | stepTimer => exact (heldKept_moves x).stepTimerAt rfl
  | clip => exact heldKept_clip (e := ⟨x, [], .done⟩)
  | windowExpiry =>
    dsimp only [InputEvent.run]
    unfold windowExpiryAt
    split <;> rfl
  | _ => cases hi

end Sys2Proof.HeldProofs
end

section
/-! PROOFS. Lawful taps at gains in range (R23, R29, R64, R65): the law of a tap, what each event does to the taps of
its input, and then both laws as what every step keeps. -/

namespace Sys2Proof.LevelProofs

open Sys2Proof Sys2Proof.Machine Sys2Proof.TapProofs Sys2Proof.FeedProofs Sys2Proof.StepProofs
  Sys2Proof.PathProofs Sys2Proof.GainProofs Sys2Proof.HeldProofs

/-! ## The law of a tap -/

/-- A level that a tap can have (R23). -/
def LevelFits (l : Int) : Prop := -240 ≤ l ∧ l ≤ 320

theorem levelFits_clampLevel (l : Int) : LevelFits (clampLevel l) := by
  unfold LevelFits clampLevel clamp
  omega

/-- The net level of a gain in range (R1, R2, R63). -/
theorem net_mem {x : Inp} (h : x.gain ≤ maxGain x.mode) : -80 ≤ x.net ∧ x.net ≤ 240 := by
  unfold Inp.net netLevel
  cases hm : x.mode <;> simp only [hm, maxGain, padOffset] at h ⊢ <;> omega

section Taps
variable {t u : Tap} {n m : Int}

/-- The fields of a tap that its law speaks of. -/
def levels (t : Tap) : Role × Option Int × Int := (t.role, t.desired, t.trim)

theorem lawful_of_levels (h : t.Lawful n) (hu : levels u = levels t) : u.Lawful n := by
  obtain ⟨hrole, hdesired, htrim⟩ : u.role = t.role ∧ u.desired = t.desired ∧ u.trim = t.trim := by
    simpa [levels] using hu
  unfold Tap.Lawful Tap.roleAgrees at *
  rwa [hrole, hdesired, htrim]

/-- The tracking computation leaves trim, role and level in agreement (R64, R65). -/
theorem lawful_tracking {l : Int} (hl : LevelFits l) (hd : t.desired = some l) (hr : t.role = (tracking n l).2)
    (ht : t.trim = (tracking n l).1) : t.Lawful n := by
  have hmem := clampTrim_mem (l - n)
  refine ⟨by rw [ht]; exact hmem.1, by rw [ht]; exact hmem.2, by rw [hd]; rintro _ ⟨⟩; exact hl, ?_⟩
  unfold Tap.roleAgrees
  rw [hd, hr, ht]
  by_cases h : clampTrim (l - n) = l - n
  · have hsum : l = n + (l - n) := by omega
    simp only [tracking, h, if_true]
    exact beq_iff_eq.2 hsum
  · simp only [tracking, if_neg h, Bool.or_eq_true, Bool.and_eq_true, beq_iff_eq, decide_eq_true_eq]
    unfold clampTrim clamp at *
    omega

/-- The owner's tap has no level, and any trim in range (R23). -/
theorem lawful_owner (hr : t.role = .owner) (hd : t.desired = none) (ht : -160 ≤ t.trim ∧ t.trim ≤ 80) :
    t.Lawful n := by
  refine ⟨ht.1, ht.2, by rw [hd]; nofun, ?_⟩
  unfold Tap.roleAgrees
  rw [hr, hd]

/-- A lawful tap is the owner's without a level, or another's with one. -/
theorem lawful_cases (h : t.Lawful n) :
    (t.role = .owner ∧ t.desired = none) ∨ (t.role ≠ .owner ∧ ∃ l, t.desired = some l ∧ LevelFits l) := by
  obtain ⟨-, -, hfits, hagrees⟩ := h
  unfold Tap.roleAgrees at hagrees
  split at hagrees
  · exact .inl ⟨‹_›, ‹_›⟩
  · rename_i l hr hd
    exact .inr ⟨by rw [hr]; nofun, l, hd, hfits l hd⟩
  · rename_i l hr hd
    exact .inr ⟨by rw [hr]; nofun, l, hd, hfits l hd⟩
  · cases hagrees

theorem track_owner (hr : t.role = .owner) : t.track n = t := by
  unfold Tap.track
  rw [hr]

theorem track_nonOwner {l : Int} (hr : t.role ≠ .owner) (hd : t.desired = some l) :
    t.track n = { t with trim := (tracking n l).1, role := (tracking n l).2 } := by
  unfold Tap.track
  rw [hd]
  cases h : t.role with
  | owner => exact absurd h hr
  | tracking => rfl
  | clamped => rfl

/-- A tap that is tracked at a new net level is lawful there (R29, R64). -/
theorem lawful_track (h : t.Lawful m) (n : Int) : (t.track n).Lawful n := by
  rcases lawful_cases h with ⟨hr, hd⟩ | ⟨hr, l, hd, hl⟩
  · rw [track_owner hr]
    exact lawful_owner hr hd ⟨h.1, h.2.1⟩
  · rw [track_nonOwner hr hd]
    exact lawful_tracking hl hd rfl rfl

theorem levels_handAligned (align : Nat) (old : Int) (t : Tap) : levels (t.handAligned align old) = levels t := by
  unfold Tap.handAligned
  split <;> rfl

theorem levels_handNow (old : Int) (t : Tap) : levels (t.handNow old) = levels t := by
  unfold Tap.handNow
  split <;> rfl

theorem lawful_newTap {l : Int} (hl : LevelFits l) : (newTap n l).Lawful n := lawful_tracking hl rfl rfl rfl

theorem lawful_setLevel (h : t.Lawful n) (relative : Bool) (v : Int) : (t.setLevel n relative v).1.Lawful n := by
  rcases lawful_cases h with ⟨hr, hd⟩ | ⟨hr, l, hd, -⟩
  · rw [setLevel_owner hr]
    exact lawful_owner hr hd (clampTrim_mem _)
  · rw [setLevel_nonOwner hr hd]
    exact lawful_tracking (levelFits_clampLevel _) rfl rfl rfl

/-- The level captured is the one that the trim stands for (R49, R69). -/
theorem lawful_capture (h : t.Lawful n) (hn : -80 ≤ n ∧ n ≤ 240) : (t.capture n).Lawful n := by
  obtain ⟨hlo, hhi, -, -⟩ := h
  refine ⟨hlo, hhi, ?_, by simp [Tap.capture, Tap.roleAgrees]⟩
  rintro _ ⟨⟩
  omega

theorem lawful_own (h : t.Lawful n) : t.own.Lawful n := lawful_owner rfl rfl ⟨h.1, h.2.1⟩

/-- A guard step raises the trim of the owner's tap alone, which has no level (R68). -/
theorem lawful_raiseTrim (h : t.Lawful n) (align : Nat) : (t.raiseTrim align).Lawful n := by
  unfold Tap.raiseTrim
  split
  · rename_i hr
    refine lawful_of_levels ?_ (levels_handAligned ..)
    rcases lawful_cases h with ⟨-, hd⟩ | ⟨hne, -⟩
    · exact lawful_owner hr hd (clampTrim_mem _)
    · exact absurd hr hne
  · exact h

theorem levels_releaseNth (n : Nat) (t : Tap) : levels (t.releaseNth n) = levels t := by
  unfold Tap.releaseNth
  split
  · split <;> rfl
  · rfl

theorem levels_advance (rate96 : Bool) (t : Tap) : levels (t.advance rate96) = levels t := by
  have hreleased : levels t.releaseDue = levels t := by
    unfold Tap.releaseDue
    split <;> rfl
  exact hreleased

end Taps

/-! ## The taps of an input -/

/-- What `State.TapsLawful` says of one input. -/
def TapsLawfulAt (x : Inp) : Prop := ∀ d, ∀ t ∈ x.tap d, t.Lawful x.net

section Inputs
variable {x y : Inp} {v : Env} {e : Ev}

theorem tapsLawful_of_held (h : TapsLawfulAt x) (hy : HeldKept x y) : TapsLawfulAt y := by
  obtain ⟨hmode, hgain, htaps, -⟩ : y.mode = x.mode ∧ y.gain = x.gain ∧ y.taps = x.taps ∧ _ := by
    simpa [HeldKept, held] using hy
  unfold TapsLawfulAt Inp.tap Inp.net at *
  rwa [hmode, hgain, htaps]

theorem tapsLawful_setTap (h : TapsLawfulAt x) (d : Slot) {u : Option Tap} (hu : ∀ t ∈ u, t.Lawful x.net) :
    TapsLawfulAt (x.setTap d u) := by
  intro c t ht
  rw [Inp.setTap_tap] at ht
  split at ht
  · exact hu t ht
  · exact h c t ht

theorem tapsLawful_modTap (h : TapsLawfulAt x) (d : Slot) {f : Tap → Tap}
    (hf : ∀ t, t.Lawful x.net → (f t).Lawful x.net) : TapsLawfulAt (x.modTap d f) := by
  refine tapsLawful_setTap h d fun u hu => ?_
  obtain ⟨t, ht, rfl⟩ := Option.map_eq_some_iff.1 hu
  exact hf t (h d t ht)

/-- Every tap changed by `f` is lawful at the new net level. -/
theorem tapsLawful_map {z : Inp} (h : TapsLawfulAt x) {f : Tap → Tap} (htaps : z.taps = x.taps.map (Option.map f))
    (hf : ∀ t, t.Lawful x.net → (f t).Lawful z.net) : TapsLawfulAt z := by
  intro d u hu
  rw [Inp.tap, htaps, Table.get_map] at hu
  obtain ⟨t, ht, rfl⟩ := Option.map_eq_some_iff.1 hu
  exact hf t (h d t ht)

/-! ### Ownership -/

theorem tapsLawful_captureOwner (h : TapsLawfulAt x) (hn : -80 ≤ x.net ∧ x.net ≤ 240) :
    TapsLawfulAt x.captureOwner := by
  unfold Inp.captureOwner
  split
  · exact tapsLawful_modTap h _ fun t ht => lawful_capture ht hn
  · exact h

theorem tapsLawful_handedOver (h : TapsLawfulAt x) (hn : -80 ≤ x.net ∧ x.net ≤ 240) (incoming : Option Slot) :
    TapsLawfulAt (x.handedOver incoming) := by
  have hcaptured := tapsLawful_captureOwner h hn
  have hgiven : TapsLawfulAt (x.captureOwner.giveTo incoming) := by
    cases incoming with
    | none => exact hcaptured
    | some d =>
      exact tapsLawful_modTap (x := { x.captureOwner with owner := some d }) hcaptured d fun _ ht => lawful_own ht
  unfold Inp.handedOver Inp.handOverGlide
  split
  · split
    · exact hgiven
    · exact hgiven
  · exact hgiven

theorem tapsLawful_leave (h : TapsLawfulAt e.inp) (hn : -80 ≤ e.inp.net ∧ e.inp.net ≤ 240) (d : Slot) :
    TapsLawfulAt (e.leave d).inp := by
  rw [leave_eq]
  dsimp only
  split
  · exact tapsLawful_handedOver (x := { e.inp with queue := e.inp.queue.tail }) h hn _
  · exact h

theorem tapsLawful_retire (h : TapsLawfulAt e.inp) (hn : -80 ≤ e.inp.net ∧ e.inp.net ≤ 240) (d : Slot) :
    TapsLawfulAt (e.retire d).inp := tapsLawful_setTap (tapsLawful_leave h hn d) d nofun

theorem tapsLawful_claim (h : TapsLawfulAt e.inp) (hn : -80 ≤ e.inp.net ∧ e.inp.net ≤ 240) (d : Slot)
    (force : Bool) : TapsLawfulAt (claimAt d force v e).inp := by
  unfold claimAt
  dsimp only
  split
  · exact h
  split
  · exact h
  split
  · exact h
  split
  · exact tapsLawful_handedOver h hn _
  split
  · exact h
  split
  · exact tapsLawful_handedOver (x := e.inp.leaveQueue d) h hn _
  · rw [Ev.answer_inp, Ev.mod_inp, joinQueue]
    split <;> exact h

theorem tapsLawful_release (h : TapsLawfulAt e.inp) (hn : -80 ≤ e.inp.net ∧ e.inp.net ≤ 240) (d : Slot) :
    TapsLawfulAt (releaseAt d v e).inp := by
  unfold releaseAt
  split
  · rw [handOn_eq]
    exact tapsLawful_handedOver (x := { e.inp with queue := e.inp.queue.tail }) h hn _
  · split <;> exact h

/-! ### Levels and acknowledgements -/

theorem tapsLawful_openTap (h : TapsLawfulAt e.inp) (hn : -80 ≤ e.inp.net ∧ e.inp.net ≤ 240) (d : Slot)
    (level : Option (BitVec 16)) : TapsLawfulAt (openTapAt d level v e).inp := by
  unfold openTapAt
  split
  · exact h
  · refine tapsLawful_setTap h d ?_
    rintro _ ⟨⟩
    refine lawful_newTap ?_
    unfold openLevel
    split
    · exact levelFits_clampLevel _
    · exact ⟨by omega, by omega⟩

theorem tapsLawful_setLevel (h : TapsLawfulAt e.inp) (d : Slot) (relative : Bool) (w : BitVec 16) :
    TapsLawfulAt (setLevelAt d relative w v e).inp := by
  cases ht : e.inp.tap d with
  | none => rwa [setLevelAt_of_none ht]
  | some t =>
    rw [setLevelAt_of_some ht]
    refine tapsLawful_setTap h d ?_
    rintro _ ⟨⟩
    exact lawful_of_levels (lawful_setLevel (h d t ht) relative w.toInt) (levels_handNow ..)

theorem tapsLawful_setTapMute (h : TapsLawfulAt e.inp) (d : Slot) (on : Bool) :
    TapsLawfulAt (setTapMuteAt d on v e).inp := by
  unfold setTapMuteAt
  split
  · exact h
  · rename_i t ht
    refine tapsLawful_setTap h d ?_
    rintro _ ⟨⟩
    exact lawful_of_levels (h d t ht) rfl

theorem record_taps (w : Write) (x : Inp) : (x.record w).taps = x.taps := by cases w <;> rfl

/-- Where N changed every tap is tracked, and where it did not the taps agree with it as they stand (R29, R64). -/
theorem tapsLawful_recordTracked (h : TapsLawfulAt x) (align : Nat) (w : Write) :
    TapsLawfulAt (x.recordTracked align w) := by
  unfold Inp.recordTracked
  dsimp only
  split
  · rename_i hnet
    unfold TapsLawfulAt Inp.tap
    rw [hnet, record_taps]
    exact h
  · refine tapsLawful_map h (f := fun t => (t.track (x.record w).net).handAligned align t.trim) ?_ fun t ht => ?_
    · rw [Inp.trackAll, record_taps]
    · exact lawful_of_levels (lawful_track ht _) (levels_handAligned ..)

theorem tapsLawful_ack (h : TapsLawfulAt e.inp) : TapsLawfulAt (ackAt v e).inp := by
  unfold ackAt
  split
  · exact h
  · rename_i o _
    have hrecorded := tapsLawful_recordTracked h v.sys.align o.write
    extract_lets old e₁ e₂
    have he₂ : FrontMoved e₁.inp e₂.inp := by
      unfold e₂
      split
      · exact .refl _
      · exact FrontMoved.clampGlide (.refl _)
    have hclamped : TapsLawfulAt e₂.inp := tapsLawful_of_held hrecorded (held_of_frontMoved he₂)
    refine tapsLawful_of_held ?_ (held_of_frontMoved (FrontMoved.moveOn (frontMoved_toIssuer _) _))
    split
    · exact tapsLawful_map hclamped rfl fun t ht => lawful_raiseTrim ht _
    · exact hclamped

end Inputs

/-! ## Every step -/

/-- Both laws of an input: its gains lie in range, and its taps are lawful. -/
def LevelsLawful (x : Inp) : Prop := x.GainsInRange ∧ TapsLawfulAt x

theorem tapsLawful_event (i : InputEvent) (v : Env) {x : Inp} (h : LevelsLawful x) :
    TapsLawfulAt (i.run v ⟨x, [], .done⟩).inp := by
  obtain ⟨⟨hgain, -⟩, ht⟩ := h
  have hn := net_mem hgain
  by_cases hi : quiet i = true
  · exact tapsLawful_of_held ht (heldKept_of_quiet hi v x)
  cases i with
  | openTap d level => exact tapsLawful_openTap (v := v) (e := ⟨x, [], .done⟩) ht hn d level
  | closeTap d =>
    dsimp only [InputEvent.run]
    unfold closeTapAt
    split
    · exact tapsLawful_retire (e := ⟨x, [], .done⟩) ht hn d
    · exact ht
  | setLevel d relative w => exact tapsLawful_setLevel (v := v) (e := ⟨x, [], .done⟩) ht d relative w
  | setTapMute d on => exact tapsLawful_setTapMute (v := v) (e := ⟨x, [], .done⟩) ht d on
  | claim d force => exact tapsLawful_claim (e := ⟨x, [], .done⟩) ht hn d force
  | release d => exact tapsLawful_release (v := v) (e := ⟨x, [], .done⟩) ht hn d
  | ack => exact tapsLawful_ack ht
  | leave d => exact tapsLawful_leave (e := ⟨x, [], .done⟩) ht hn d
  | retire d => exact tapsLawful_retire (e := ⟨x, [], .done⟩) ht hn d
  | _ => exact absurd rfl hi

/-- Lawful taps, beside gains in range, are a law of every input. -/
theorem levelsLawful_law : InputLaw LevelsLawful where
  event i v _ h := ⟨inRange_event i v h.1, tapsLawful_event i v h⟩
  sample rate96 _ _ h := ⟨h.1, tapsLawful_map h.2 rfl fun _ ht => lawful_of_levels ht (levels_advance rate96 _)⟩
  released d n _ h := ⟨h.1, tapsLawful_modTap h.2 d fun _ ht => lawful_of_levels ht (levels_releaseNth n _)⟩
  late _ _ h := h
  controlReset x h := ⟨inRange_law.controlReset x h.1, tapsLawful_captureOwner h.2 (net_mem h.1.1)⟩
  powerOn rate96 n := ⟨inRange_reset rate96 n, fun d t ht => by simp [Inp.reset, Inp.tap] at ht⟩
  tick _ h := ⟨inRange_tick h.1, h.2⟩

/-- Settles O54: gains in range are a law of each input on their own, and lawful taps are one beside them. -/
theorem gainsAndTapsKept : Obligations.GainsAndTapsKept := by
  refine ⟨fun s t h => inRange_law.stepLaw.step_kept h, fun s t hg ht hstep k => ?_⟩
  exact (levelsLawful_law.stepLaw.step_kept (fun k => ⟨hg k, ht k⟩) hstep k).2

end Sys2Proof.LevelProofs
end

section
/-! PROOFS. Hand-overs and claim queues (R41 to R54): what a hand-over changes, where a slot is placed in a claim
queue, and CLAIM and RELEASE at their next input. -/

namespace Sys2Proof.HandOverProofs

open Sys2Proof Sys2Proof.Machine Sys2Proof.TapProofs Sys2Proof.StepProofs

/-! ## A hand-over (R49) -/

section HandOver
variable (x : Inp) (incoming : Option Slot)

theorem captureOwner_eq : x.captureOwner = { x with taps := x.captureOwner.taps } := by
  unfold Inp.captureOwner
  split <;> rfl

/-- The outgoing owner's tap captures its level (R49, R69). -/
theorem captureOwner_tap (d : Slot) : x.captureOwner.tap d =
    (x.tap d).map fun t => if x.owner = some d then t.capture x.net else t := by
  unfold Inp.captureOwner
  cases ho : x.owner with
  | none => simp
  | some o =>
    rw [Inp.modTap_tap]
    by_cases hd : d = o
    · simp [hd]
    · simp [hd, Ne.symm hd]

/-- The incoming owner's tap takes role OWNER (R49). -/
theorem giveTo_tap (d : Slot) : (x.giveTo incoming).tap d =
    (x.tap d).map fun t => if incoming = some d then t.own else t := by
  cases incoming with
  | none => simp [Inp.giveTo, Inp.tap]
  | some i =>
    rw [Inp.giveTo, Inp.modTap_tap]
    by_cases hd : d = i
    · simp [hd, Inp.tap]
    · simp [hd, Ne.symm hd, Inp.tap]

theorem giveTo_eq : x.giveTo incoming = { x with owner := incoming, taps := (x.giveTo incoming).taps } := by
  cases incoming <;> rfl

theorem handOverGlide_eq : x.handOverGlide =
    { x with glide := x.handOverGlide.glide, waiting := x.handOverGlide.waiting } := by
  unfold Inp.handOverGlide
  split
  · split <;> rfl
  · rfl

/-- An owner glide is dropped, a guard glide continues without its staged retarget (R50, R51, R90). -/
theorem handOverGlide_glide : x.handOverGlide.glide = match x.glide with
    | some g => if g.source = .owner then none else some { g with staged := none }
    | none => none := by
  unfold Inp.handOverGlide
  cases hg : x.glide with
  | none => exact hg
  | some g =>
    dsimp only
    cases hs : g.source <;> rfl

theorem handOverGlide_waiting : x.handOverGlide.waiting =
    if x.glide.any fun g => g.source == .owner then x.waiting.filter (· != .step) else x.waiting := by
  unfold Inp.handOverGlide
  cases hg : x.glide with
  | none => rfl
  | some g =>
    obtain ⟨_, _, source, _⟩ := g
    cases source <;> rfl

theorem handedOver_eq : x.handedOver incoming = { x with
    owner := incoming
    taps := (x.handedOver incoming).taps
    glide := (x.handedOver incoming).glide
    waiting := (x.handedOver incoming).waiting } := by
  unfold Inp.handedOver
  rw [handOverGlide_eq, giveTo_eq, captureOwner_eq]

/-- The taps at a hand-over: the incoming owner's, the outgoing owner's, and the others. -/
theorem handedOver_tap (d : Slot) : (x.handedOver incoming).tap d = (x.tap d).map fun t =>
    if incoming = some d then t.own else if x.owner = some d then t.capture x.net else t := by
  have htaps : (x.handedOver incoming).tap d = (x.captureOwner.giveTo incoming).tap d := by
    rw [Inp.handedOver, handOverGlide_eq]
    rfl
  rw [htaps, giveTo_tap, captureOwner_tap, Option.map_map]
  refine congrArg (Option.map · (x.tap d)) (funext fun t => ?_)
  show (if incoming = some d then Tap.own (if x.owner = some d then t.capture x.net else t)
    else if x.owner = some d then t.capture x.net else t) = _
  split
  · split <;> rfl
  · rfl

end HandOver

/-- Settles O29: capture, handing to the incoming owner and the end of the glide, each in its own fields. -/
theorem handOverCapturesAndFreezes : Obligations.HandOverCapturesAndFreezes := by
  intro x incoming y
  have hglide : (x.captureOwner.giveTo incoming).glide = x.glide := by rw [giveTo_eq, captureOwner_eq]
  have hwaiting : (x.captureOwner.giveTo incoming).waiting = x.waiting := by rw [giveTo_eq, captureOwner_eq]
  refine ⟨handedOver_eq x incoming, handedOver_tap x incoming, ?_, ?_⟩
  · rw [← hglide]
    exact handOverGlide_glide _
  · rw [← hglide, ← hwaiting]
    exact handOverGlide_waiting _

/-! ## Places in a claim queue (R42) -/

/-- A slot is placed just behind the last entry that is ahead of it, or at the head. -/
theorem insertBehind_split (ahead : Slot → Bool) (d : Slot) (q : List Slot) : ∃ a b, q = a ++ b ∧
    insertBehind ahead d q = a ++ d :: b ∧ (∀ c ∈ b, ahead c = false) ∧
    (∀ c, a.getLast? = some c → ahead c = true) := by
  induction q with
  | nil => exact ⟨[], [], rfl, rfl, nofun, nofun⟩
  | cons c rest ih =>
    by_cases hany : (c :: rest).any ahead = true
    · obtain ⟨a, b, hq, hins, hb, ha⟩ := ih
      refine ⟨c :: a, b, by rw [hq]; rfl, by simp [insertBehind, hany, hins], hb, fun l hl => ?_⟩
      cases a with
      | nil =>
        obtain rfl : c = l := by simpa using hl
        have hnone : rest.any ahead = false := by
          rw [hq, List.any_eq_false]
          simpa using hb
        simpa [hnone] using hany
      | cons a as => exact ha l (by simpa using hl)
    · refine ⟨[], c :: rest, rfl, by simp [insertBehind, hany], ?_, nofun⟩
      simpa using hany

section Place
variable {ahead : Slot → Bool} {d : Slot} {q : List Slot}

theorem mem_insertBehind {c : Slot} : c ∈ insertBehind ahead d q ↔ c = d ∨ c ∈ q := by
  obtain ⟨a, b, rfl, hins, -⟩ := insertBehind_split ahead d q
  rw [hins]
  simp only [List.mem_append, List.mem_cons]
  tauto

theorem nodup_insertBehind (hq : q.Nodup) (hd : d ∉ q) : (insertBehind ahead d q).Nodup := by
  obtain ⟨a, b, rfl, hins, -⟩ := insertBehind_split ahead d q
  rw [hins]
  exact List.nodup_middle.2 (List.nodup_cons.2 ⟨hd, hq⟩)

/-- A queue in falling order of rank stays in it where `ahead` goes by rank. -/
theorem pairwise_insertBehind {rank : Slot → Nat} (hq : q.Pairwise fun c e => rank e ≤ rank c)
    (hahead : ∀ c, ahead c = true → rank d ≤ rank c) (hbehind : ∀ c, ahead c = false → rank c ≤ rank d) :
    (insertBehind ahead d q).Pairwise fun c e => rank e ≤ rank c := by
  obtain ⟨a, b, rfl, hins, hb, ha⟩ := insertBehind_split ahead d q
  obtain ⟨hpa, hpb, hab⟩ := List.pairwise_append.1 hq
  rw [hins]
  have hlast : ∀ c ∈ a, rank d ≤ rank c := by
    intro c hc
    obtain ⟨init, l, rfl⟩ : ∃ init l, a = init ++ [l] :=
      ⟨a.dropLast, a.getLast (List.ne_nil_of_mem hc), (List.dropLast_append_getLast _).symm⟩
    have hl : rank d ≤ rank l := hahead l (ha l (by simp))
    rcases List.mem_append.1 hc with hc | hc
    · exact Nat.le_trans hl ((List.pairwise_append.1 hpa).2.2 c hc l (by simp))
    · rwa [List.mem_singleton.1 hc]
  refine List.pairwise_append.2 ⟨hpa, List.pairwise_cons.2 ⟨fun c hc => hbehind c (hb c hc), hpb⟩, ?_⟩
  intro c hc e he
  rcases List.mem_cons.1 he with rfl | he
  · exact hlast c hc
  · exact hab c hc e he

end Place

/-! ## CLAIM and RELEASE (R43 to R48) -/

section Next
variable {s : State} {r : Run} {p : Pattern} {k : Input} {rest : List Input}
  {past : List (Input × ResultCode)}

theorem exec_claim {force : Bool} (hs : s.sends r (.claim p force)) (hn : s.nextAt r p false k rest past) :
    exec .claim s = .next ((s.commit k (claimAt r.slot force s.env (untouched s k))).answered r k rest past
      (claimAt r.slot force s.env (untouched s k)).code []) :=
  congrArg Host.Outcome.next ((State.applyKind_of_sends hs _).trans (State.onPattern_event hn _))

theorem exec_release (hs : s.sends r (.release p)) (hn : s.nextAt r p false k rest past) :
    exec .release s = .next ((s.commit k (releaseAt r.slot s.env (untouched s k))).answered r k rest past
      (releaseAt r.slot s.env (untouched s k)).code []) :=
  congrArg Host.Outcome.next ((State.applyKind_of_sends hs _).trans (State.onPattern_event hn _))

end Next

/-- Settles O28: the three branches of `releaseAt`. -/
theorem releaseJudged : Obligations.ReleaseJudged := by
  intro s r p k rest past hs hn x
  rw [exec_release hs hn, releaseAt, untouched_inp]
  split
  · rw [handOn_eq]
    rfl
  split
  · rfl
  · rw [commit_answer]
    rfl

theorem tap_eq_none_iff (x : Inp) (d : Slot) : x.tap d = none ↔ ¬ x.holds d = true := by
  simp [Inp.holds]

section Claim
variable {d : Slot} {force : Bool} {v : Env} {e : Ev}

theorem claimAt_of_not_own (h : (v.slots.get d).perms.own = false) :
    claimAt d force v e = e.answer .denied := by
  simp [claimAt, h]

theorem claimAt_of_not_opened (h : (v.slots.get d).perms.own ≠ false) (hs : (v.slots.get d).state ≠ .opened) :
    claimAt d force v e = e.answer .deskState := by
  simp [claimAt, h, hs]

theorem claimAt_of_no_tap (h : (v.slots.get d).perms.own ≠ false) (hs : ¬ (v.slots.get d).state ≠ .opened)
    (ht : e.inp.tap d = none) : claimAt d force v e = e.answer .noTap := by
  have hno := (tap_eq_none_iff _ _).1 ht
  simp [claimAt, h, not_not.1 hs, hno]

/-- Past the three refusals the owner decides (R43). -/
theorem claimAt_of_may (h : (v.slots.get d).perms.own ≠ false) (hs : ¬ (v.slots.get d).state ≠ .opened)
    (ht : ¬ e.inp.tap d = none) : claimAt d force v e = match e.inp.owner with
      | none => (e.handOver (some d)).answer .done
      | some o =>
        if o = d then e.answer .done
        else if force && (v.slots.get d).perms.preempt && v.rank o < v.rank d then
          (e.preempt v d o).answer .done
        else (e.mod (joinQueue v d)).answer .queued := by
  have hholds := not_not.1 fun hno => ht ((tap_eq_none_iff _ _).2 hno)
  unfold claimAt
  dsimp only
  rw [not_not.1 hs, hholds, Bool.eq_true_of_not_eq_false h]
  rfl

end Claim

/-- Where the slot's place is already its own it keeps it, and otherwise it is inserted (R42, R44). -/
theorem joinQueue_eq (v : Env) (d : Slot) (x : Inp) : joinQueue v d x = { x with
    queue := if d ∈ x.queue then x.queue else insertBehind (fun c => v.rank d ≤ v.rank c) d x.queue } := by
  unfold joinQueue
  split <;> rfl

/-- Settles O27: the branches of `claimAt` in their order, and the split of a queue at the place of a slot. -/
theorem claimJudged : Obligations.ClaimJudged := by
  refine ⟨?_, insertBehind_split⟩
  intro s r p force k rest past hs hn x d q rank
  rw [exec_claim hs hn]
  change Host.Outcome.next ((s.commit k (claimAt d force s.env (untouched s k))).answered r k rest past
    (claimAt d force s.env (untouched s k)).code []) = _
  by_cases hown : q.perms.own = false
  · rw [if_pos hown, claimAt_of_not_own (v := s.env) hown, commit_answer]
    rfl
  by_cases hstate : q.state ≠ .opened
  · rw [if_neg hown, if_pos hstate, claimAt_of_not_opened (v := s.env) hown hstate, commit_answer]
    rfl
  by_cases htap : x.tap d = none
  · rw [if_neg hown, if_neg hstate, if_pos htap,
      claimAt_of_no_tap (v := s.env) (e := untouched s k) hown hstate htap, commit_answer]
    rfl
  rw [if_neg hown, if_neg hstate, if_neg htap,
    claimAt_of_may (v := s.env) (e := untouched s k) hown hstate htap, untouched_inp]
  change _ = Host.Outcome.next (match (s.inp k).owner with | none => _ | some o => _)
  split
  · rfl
  next o ho =>
    have hforce : (force && q.perms.preempt && decide (rank o < rank d)) = true ↔
        force = true ∧ q.perms.preempt = true ∧ rank o < rank d := by
      simp [and_assoc]
    split
    · rw [commit_answer]
      rfl
    split
    next hpre =>
      rw [if_pos (hforce.1 hpre)]
      rfl
    next hpre =>
      rw [if_neg (mt hforce.2 hpre), commit_mod_answer, joinQueue_eq]
      rfl

end Sys2Proof.HandOverProofs
end

section
/-! PROOFS. The passing of a millisecond, power-on reset, control reset and the CRST and PSAG pins (R8, R9, R22,
R39, R60, R93, R116, R117, R142). -/

namespace Sys2Proof.ResetProofs

open Sys2Proof Sys2Proof.Machine Sys2Proof.HandOverProofs

/-! ## One millisecond -/

theorem tick_inp (s : State) (k : Input) : s.tick.inp k = (s.inp k).tick := Table.get_map ..

theorem tick_slot (s : State) (d : Slot) : s.tick.slot d = (s.slot d).tick := Table.get_map ..

/-- Settles O2: an idle step is a tick, which is one at every input and every slot. -/
theorem idleStepIsOneMillisecond : Obligations.IdleStepIsOneMillisecond := by
  intro s hidle
  refine ⟨s.tick, ?_, tick_inp s, tick_slot s, rfl, rfl, rfl, rfl, rfl⟩
  unfold step
  rw [hidle]

/-! ## Power-on reset (R8, R38, R94, R118, R142) -/

theorem powerOn_inp (psag rate96 : Bool) (n : Nat) (q : List Instr) (k : Input) :
    (State.powerOn psag rate96 n q).inp k = .reset rate96 := Table.get_fill ..

theorem powerOn_slot (psag rate96 : Bool) (n : Nat) (q : List Instr) (d : Slot) :
    (State.powerOn psag rate96 n q).slot d =
      { SlotRec.reset d with flags := { StickyFlags.clear with supply := psag && d == 0 } } := Table.get_ofFn ..

/-- A write that was outstanding is forgotten and unanswered from then on (R8, R94). -/
theorem inp_powerOn (rate96 : Bool) (x : Inp) : x.powerOn rate96 = { Inp.reset rate96 with
    unanswered := x.unanswered + if x.outstanding = none then 0 else 1 } := by
  unfold Inp.powerOn
  cases x.outstanding <;> rfl

theorem execPowerOnReset_eq (s : State) : exec .powerOnReset s =
    let t := State.powerOn s.sys.psag s.sys.rate96 s.freeCount s.pending
    .next { t with inputs := .ofFn fun k => { t.inp k with
      unanswered := (s.inp k).unanswered + if (s.inp k).outstanding = none then 0 else 1 } } := by
  have hinputs : s.inputs.map (Inp.powerOn s.sys.rate96) = .ofFn fun k =>
      { (State.powerOn s.sys.psag s.sys.rate96 s.freeCount s.pending).inp k with
        unanswered := (s.inp k).unanswered + if (s.inp k).outstanding = none then 0 else 1 } := by
    refine Table.ext_get fun k => ?_
    rw [Table.get_map, Table.get_ofFn, inp_powerOn, powerOn_inp]
    rfl
  change Host.Outcome.next { State.powerOn s.sys.psag s.sys.rate96 s.freeCount s.pending with
    inputs := s.inputs.map (Inp.powerOn s.sys.rate96) } = _
  rw [hinputs]

theorem flags_reset_has (supply : Bool) (m : Sticky) :
    StickyFlags.has { StickyFlags.clear with supply := supply } m = (supply && (m == .supply)) := by
  cases m <;> simp [StickyFlags.has, StickyFlags.clear]

/-- Settles O4: the record of each input and of each slot read off, and the rest by definition. -/
theorem powerOnResetValues : Obligations.PowerOnResetValues := by
  refine ⟨execPowerOnReset_eq, rfl, fun psag rate96 n q => ⟨fun k => ?_, fun d => ?_, rfl, rfl, rfl, rfl, rfl⟩⟩
  · rw [powerOn_inp]
    refine ⟨rfl, rfl, rfl, rfl, rfl, rfl, rfl, rfl, rfl, rfl, rfl, rfl, rfl, rfl, rfl, rfl, rfl, rfl, rfl,
      fun d => ⟨?_, ?_⟩, rfl⟩
    · exact Table.get_fill none d
    · exact Table.get_fill 0 d
  · rw [powerOn_slot]
    refine ⟨rfl, rfl, rfl, rfl, rfl, rfl, fun k => Table.get_fill false k, rfl, fun m => ?_, fun hd => ?_,
      fun hd => ?_⟩
    · exact flags_reset_has _ m
    · subst hd
      exact ⟨rfl, rfl, rfl⟩
    · exact ⟨if_neg hd, if_neg hd, if_neg hd, if_neg hd⟩

/-! ## Control reset (R9, R39, R60, R93, R104, R117, R142) -/

/-- A control reset at one input: the owner's tap captures its level, and what hangs on ownership ends. -/
theorem inp_controlReset (x : Inp) : x.controlReset = { x with
    request := none, owner := none, queue := [], glide := none
    waiting := x.waiting.filter (· != .step)
    guard := { x.guard with count := 0, timer := none }
    taps := .ofFn fun d => (x.tap d).map fun tap => if x.owner = some d then
      { tap with role := .tracking, desired := some (x.net + tap.trim) } else tap } := by
  have htaps : x.captureOwner.taps = .ofFn fun d => (x.tap d).map fun tap =>
      if x.owner = some d then tap.capture x.net else tap := by
    refine Table.ext_get fun d => ?_
    rw [Table.get_ofFn, ← captureOwner_tap]
    rfl
  unfold Inp.controlReset
  rw [captureOwner_eq, htaps]
  rfl

/-- A control reset at one slot but for its marks. -/
theorem slotRec_controlReset (d : Slot) (tapped : Input → Bool) (r : SlotRec) :
    r.controlReset d tapped = { (if d = 0 ∨ r.state = .closed then r
      else { r with state := .absent, timer := none, requests := [], responses := [] }) with
        flags := .clear, pulse := none, marks := (r.controlReset d tapped).marks } := by
  unfold SlotRec.controlReset SlotRec.live
  by_cases hd : d = 0
  · rw [if_pos hd, if_pos (show d = 0 ∨ r.state = .closed from .inl hd)]
    split <;> rfl
  · cases hs : r.state <;> simp [hd, hs]

/-- Marks are set on every tapped input, and on all for an observer (R117). -/
theorem controlReset_marks (d : Slot) (tapped : Input → Bool) (r : SlotRec) (k : Input) :
    (r.controlReset d tapped).marks.get k = true ↔ r.marks.get k = true ∨
      (r.state ≠ .closed ∧ (tapped k = true ∨ r.perms.observer = true)) := by
  unfold SlotRec.controlReset SlotRec.live
  by_cases hd : d = 0
  · rw [if_pos hd]
    by_cases hs : r.state = .closed <;> simp [hs, or_assoc]
  · cases r.state <;> simp [hd, or_assoc]

theorem controlReset_slot (s : State) (d : Slot) :
    s.controlReset.slot d = (s.slot d).controlReset d fun k => (s.inp k).holds d := Table.get_ofFn ..

/-! ## The pins -/

theorem raise_supply (r : SlotRec) : r.raise .supply =
    if r.state = .closed then r else { r with flags := { r.flags with supply := true } } := by
  unfold SlotRec.raise SlotRec.live
  by_cases hs : r.state = .closed
  · rw [if_pos hs, hs]
    rfl
  · rw [if_neg hs, if_pos (bne_iff_ne.2 hs)]
    rfl

/-- Settles O51: the pins read off their definitions, and a control reset record by record. -/
theorem resetAndSupplyPins : Obligations.ResetAndSupplyPins := by
  intro s
  refine ⟨rfl, ?_, rfl, fun k => ?_, fun d => ⟨fun k => ?_, ?_⟩, rfl, rfl, rfl, rfl, rfl⟩
  · rw [← raise_supply]
    rfl
  · exact (Table.get_map ..).trans (inp_controlReset _)
  · rw [controlReset_slot]
    exact controlReset_marks d _ _ k
  · rw [controlReset_slot]
    exact slotRec_controlReset d _ _

end Sys2Proof.ResetProofs
end

section
/-! PROOFS. Owner and claim queue (R41, R42, R49, R54): the laws of ownership as seats, queue and glide, what each
event does to them, and then the laws as what every step keeps. -/

namespace Sys2Proof.OwnershipProofs

open Sys2Proof Sys2Proof.Machine Sys2Proof.TapProofs Sys2Proof.GlideProofs Sys2Proof.SlotProofs
  Sys2Proof.StepProofs Sys2Proof.PathProofs Sys2Proof.HeldProofs Sys2Proof.LevelProofs Sys2Proof.HandOverProofs
  Sys2Proof.ResetProofs

/-! ## The law in parts -/

/-- Exactly the owner's tap has role OWNER (R49). -/
def OwnerRoles (x : Inp) : Prop := ∀ d, x.ownsByRole d = true ↔ x.owner = some d

/-- An orphaned input holds no glide of source OWNER and no staged retarget (R54, R90). -/
def OwnedGlide (x : Inp) : Prop :=
  ∀ g ∈ x.glide, g.source = .owner ∨ g.staged.isSome = true → x.owner.isSome = true

/-- The claim queue as it stands beside owner `o` (R42). -/
structure QueueFits (slots : Table SlotRec 6) (o : Option Slot) (x : Inp) : Prop where
  orphaned : o = none → x.queue = []
  nodup : x.queue.Nodup
  entries : ∀ d ∈ x.queue, o ≠ some d ∧ x.holds d = true ∧ (slots.get d).state = .opened
  ranked : x.queue.Pairwise fun c d => (slots.get d).rank ≤ (slots.get c).rank

section Parts
variable {slots : Table SlotRec 6} {x y : Inp}

theorem ownershipLawful_iff : x.OwnershipLawful slots ↔ OwnerRoles x ∧
    (∀ d ∈ x.owner, (slots.get d).state = .opened) ∧ QueueFits slots x.owner x ∧ OwnedGlide x := by
  constructor
  · rintro ⟨hroles, hopened, horphaned, hnodup, hentries, hranked, hglide⟩
    exact ⟨hroles, hopened, ⟨horphaned, hnodup, hentries, hranked⟩, hglide⟩
  · rintro ⟨hroles, hopened, ⟨horphaned, hnodup, hentries, hranked⟩, hglide⟩
    exact ⟨hroles, hopened, horphaned, hnodup, hentries, hranked, hglide⟩

theorem ownedGlide_of_owner (h : x.owner.isSome = true) : OwnedGlide x := fun _ _ _ => h

/-- A glide that keeps its source, and stages nothing new, is as much owned as it was. -/
theorem OwnedGlide.of_kept (h : OwnedGlide x) (howner : y.owner = x.owner)
    (hglide : ∀ g' ∈ y.glide, ∃ g ∈ x.glide, g'.source = g.source ∧ g'.staged.isSome = g.staged.isSome) :
    OwnedGlide y := by
  intro g' hg' hby
  obtain ⟨g, hg, hsource, hstaged⟩ := hglide g' hg'
  rw [howner]
  exact h g hg (by rwa [hsource, hstaged] at hby)

theorem OwnedGlide.of_same (h : OwnedGlide x) (howner : y.owner = x.owner) (hglide : y.glide = x.glide) :
    OwnedGlide y := h.of_kept howner fun g hg => ⟨g, hglide ▸ hg, rfl, rfl⟩

theorem ownedGlide_moves : PassesMoves OwnedGlide := by
  intro x y hm h
  refine h.of_kept (hm.field _ fun _ _ _ => rfl) fun g' hg' => ?_
  obtain ⟨g, hg, -, hsource, hstaged⟩ := hm.glide g' hg'
  exact ⟨g, hg, hsource, congrArg Option.isSome hstaged⟩

end Parts

/-! ## Seats -/

/-- Whether the slot holds a tap, and then whether its role is OWNER. -/
def seat (x : Inp) (d : Slot) : Option Bool := (x.tap d).map fun t => t.role == .owner

/-- The seats, the owner and the claim queue are as they were. -/
structure Seated (x y : Inp) : Prop where
  seats : ∀ d, seat y d = seat x d
  owner : y.owner = x.owner
  queue : y.queue = x.queue

section Seats
variable {slots : Table SlotRec 6} {x y : Inp} {d : Slot}

theorem ownsByRole_eq (x : Inp) (d : Slot) : x.ownsByRole d = (seat x d).any id := by
  unfold Inp.ownsByRole seat
  cases x.tap d <;> rfl

theorem holds_eq (x : Inp) (d : Slot) : x.holds d = (seat x d).isSome := Option.isSome_map.symm

theorem seated_of_held (h : HeldKept x y) : Seated x y := by
  obtain ⟨-, -, htaps, howner, hqueue⟩ : y.mode = x.mode ∧ y.gain = x.gain ∧ y.taps = x.taps ∧
      y.owner = x.owner ∧ y.queue = x.queue := by simpa [HeldKept, held] using h
  exact ⟨fun d => by simp only [seat, Inp.tap, htaps], howner, hqueue⟩

theorem lawful_of_seats (h : x.OwnershipLawful slots) (hs : Seated x y) (hg : OwnedGlide y) :
    y.OwnershipLawful slots := by
  obtain ⟨hroles, hopened, ⟨horphaned, hnodup, hentries, hranked⟩, -⟩ := ownershipLawful_iff.1 h
  refine ownershipLawful_iff.2 ⟨fun d => ?_, by rwa [hs.owner], ⟨?_, ?_, fun d hd => ?_, ?_⟩, hg⟩
  · rw [ownsByRole_eq, hs.seats, ← ownsByRole_eq, hs.owner]
    exact hroles d
  · rwa [hs.owner, hs.queue]
  · rwa [hs.queue]
  · rw [holds_eq, hs.seats, ← holds_eq, hs.owner]
    exact hentries d (hs.queue ▸ hd)
  · rwa [hs.queue]

/-- A change of the taps that leaves each tap's role OWNER or not, as it was. -/
theorem seated_taps (howner : y.owner = x.owner) (hqueue : y.queue = x.queue) {f : Slot → Tap → Tap}
    (htap : ∀ d, y.tap d = (x.tap d).map (f d)) (hf : ∀ d t, (f d t).role = .owner ↔ t.role = .owner) :
    Seated x y := by
  refine ⟨fun d => ?_, howner, hqueue⟩
  unfold seat
  rw [htap, Option.map_map]
  refine congrArg (Option.map · (x.tap d)) (funext fun t => ?_)
  rw [Function.comp_apply, Bool.eq_iff_iff, beq_iff_eq, beq_iff_eq]
  exact hf d t

theorem seated_map (howner : y.owner = x.owner) (hqueue : y.queue = x.queue) {f : Tap → Tap}
    (htaps : y.taps = x.taps.map (Option.map f)) (hf : ∀ t, (f t).role = .owner ↔ t.role = .owner) :
    Seated x y :=
  seated_taps howner hqueue (f := fun _ => f) (fun d => by rw [Inp.tap, htaps, Table.get_map]; rfl) fun _ => hf

theorem seated_modTap (d : Slot) {f : Tap → Tap} (hf : ∀ t, (f t).role = .owner ↔ t.role = .owner) :
    Seated x (x.modTap d f) := by
  refine seated_taps (f := fun c t => if c = d then f t else t) rfl rfl (fun c => ?_) fun c t => ?_
  · rw [Inp.modTap_tap]
    by_cases hc : c = d
    · simp [hc]
    · simp [hc]
  · split
    · exact hf t
    · exact Iff.rfl

theorem seated_setTap {t u : Tap} (h : x.tap d = some t) (hu : u.role = .owner ↔ t.role = .owner) :
    Seated x (x.setTap d (some u)) := by
  refine ⟨fun c => ?_, rfl, rfl⟩
  unfold seat
  rw [Inp.setTap_tap]
  split
  · rename_i hc
    subst hc
    rw [h]
    exact congrArg some (by rw [Bool.eq_iff_iff, beq_iff_eq, beq_iff_eq]; exact hu)
  · rfl

theorem role_of_levels {t u : Tap} (h : levels u = levels t) : u.role = .owner ↔ t.role = .owner := by
  have hrole : u.role = t.role := congrArg Prod.fst h
  rw [hrole]

theorem tracking_not_owner (n l : Int) : (tracking n l).2 ≠ .owner := by
  unfold tracking
  dsimp only
  split <;> nofun

/-- The tracking computation makes no owner and unmakes none (R64, R67). -/
theorem role_track (n : Int) (t : Tap) : (t.track n).role = .owner ↔ t.role = .owner := by
  by_cases hr : t.role = .owner
  · rw [track_owner hr]
  · cases hd : t.desired with
    | some l =>
      rw [track_nonOwner hr hd]
      exact iff_of_false (tracking_not_owner n l) hr
    | none =>
      unfold Tap.track
      rw [hd]
      cases hc : t.role <;> simp [hc]

theorem role_raiseTrim (align : Nat) (t : Tap) : (t.raiseTrim align).role = .owner ↔ t.role = .owner := by
  unfold Tap.raiseTrim
  split
  · have hraised := role_of_levels (levels_handAligned align t.trim { t with trim := clampTrim (t.trim + 4) })
    exact hraised
  · exact Iff.rfl

theorem role_setLevel (n : Int) (relative : Bool) (w : Int) (t : Tap) :
    (t.setLevel n relative w).1.role = .owner ↔ t.role = .owner := by
  by_cases hr : t.role = .owner
  · rw [setLevel_owner hr]
  · cases hd : t.desired with
    | some l =>
      rw [setLevel_nonOwner hr hd]
      exact iff_of_false (tracking_not_owner _ _) hr
    | none =>
      unfold Tap.setLevel
      rw [hd]
      cases hc : t.role <;> simp_all

end Seats

/-! ## Hand-overs and queue places -/

section HandOver
variable {slots : Table SlotRec 6} {x : Inp} {incoming : Option Slot}

/-- At a hand-over the tap of the incoming owner alone has role OWNER (R49). -/
theorem ownerRoles_handedOver (h : OwnerRoles x) (hin : ∀ d ∈ incoming, x.holds d = true) :
    OwnerRoles (x.handedOver incoming) := by
  intro d
  have howner : (x.handedOver incoming).owner = incoming := by rw [handedOver_eq]
  rw [howner, Inp.ownsByRole, handedOver_tap, Option.any_map]
  by_cases hi : incoming = some d
  · obtain ⟨t, ht⟩ := Option.isSome_iff_exists.1 (hin d hi)
    simp [hi, ht, Tap.own]
  · by_cases ho : x.owner = some d
    · cases x.tap d <;> simp [hi, ho, Tap.capture]
    · have hno := mt (h d).1 ho
      simpa [hi, ho, Inp.ownsByRole] using hno

/-- No glide is left for the owner to answer for (R50, R51, R90). -/
theorem ownedGlide_handedOver (x : Inp) (incoming : Option Slot) : OwnedGlide (x.handedOver incoming) := by
  intro g hg hby
  have hglide := handOverGlide_glide (x.captureOwner.giveTo incoming)
  change (x.handedOver incoming).glide = _ at hglide
  rw [hglide] at hg
  cases hy : (x.captureOwner.giveTo incoming).glide with
  | none => simp [hy] at hg
  | some g' =>
    simp only [hy, Option.mem_def] at hg
    split at hg
    · cases hg
    · rename_i hs
      obtain rfl := Option.some.inj hg
      exact absurd hby (by simp [hs])

theorem QueueFits.of_holds {y : Inp} {o : Option Slot} (h : QueueFits slots o x) (hqueue : y.queue = x.queue)
    (hholds : y.holds = x.holds) : QueueFits slots o y := by
  obtain ⟨horphaned, hnodup, hentries, hranked⟩ := h
  constructor <;> simpa only [hqueue, hholds]

/-- A hand-over to a slot that is OPEN and holds a tap, with the queue fit beside it (R49). -/
theorem lawful_handedOver (h : OwnerRoles x) (hin : ∀ d ∈ incoming, x.holds d = true ∧ (slots.get d).state = .opened)
    (hqueue : QueueFits slots incoming x) : (x.handedOver incoming).OwnershipLawful slots := by
  have howner : (x.handedOver incoming).owner = incoming := by rw [handedOver_eq]
  have hq : (x.handedOver incoming).queue = x.queue := by rw [handedOver_eq]
  refine ownershipLawful_iff.2 ⟨ownerRoles_handedOver h fun d hd => (hin d hd).1, ?_, ?_,
    ownedGlide_handedOver x incoming⟩
  · rw [howner]
    exact fun d hd => (hin d hd).2
  · rw [howner]
    exact hqueue.of_holds hq (handedOver_holds x incoming)

/-- Places given up leave the queue fit (R42, R48). -/
theorem QueueFits.filter {o : Option Slot} (h : QueueFits slots o x) (p : Slot → Bool) :
    QueueFits slots o { x with queue := x.queue.filter p } where
  orphaned ho := by rw [h.orphaned ho]; rfl
  nodup := h.nodup.filter p
  entries d hd := h.entries d (List.mem_of_mem_filter hd)
  ranked := h.ranked.filter p

/-- The head of the queue may become the owner, with the entries behind it (R47). -/
theorem QueueFits.tail {o : Option Slot} (h : QueueFits slots o x) :
    QueueFits slots x.queue.head? { x with queue := x.queue.tail } := by
  obtain ⟨-, hnodup, hentries, hranked⟩ := h
  cases hq : x.queue with
  | nil => exact ⟨fun _ => rfl, List.nodup_nil, by simp, List.Pairwise.nil⟩
  | cons c rest =>
    rw [hq] at hnodup hentries hranked
    obtain ⟨hc, hnodup⟩ := List.nodup_cons.1 hnodup
    refine ⟨nofun, hnodup, fun d hd => ⟨?_, (hentries d (.tail _ hd)).2⟩, (List.pairwise_cons.1 hranked).2⟩
    rintro ⟨⟩
    exact hc hd

/-- The owner hands on to the head of its queue, or to none (R47). -/
theorem lawful_handedOn (h : x.OwnershipLawful slots) :
    ({ x with queue := x.queue.tail }.handedOver x.queue.head?).OwnershipLawful slots := by
  obtain ⟨hroles, -, hqueue, -⟩ := ownershipLawful_iff.1 h
  exact lawful_handedOver hroles (fun d hd => (hqueue.entries d (List.mem_of_mem_head? hd)).2) hqueue.tail

theorem lawful_leaveQueue (h : x.OwnershipLawful slots) (d : Slot) :
    ({ x with queue := x.queue.filter (· != d) } : Inp).OwnershipLawful slots := by
  obtain ⟨hroles, hopened, hqueue, hglide⟩ := ownershipLawful_iff.1 h
  exact ownershipLawful_iff.2 ⟨hroles, hopened, hqueue.filter _, hglide⟩

theorem lawful_leave {e : Ev} (h : e.inp.OwnershipLawful slots) (d : Slot) :
    (e.leave d).inp.OwnershipLawful slots := by
  rw [leave_eq]
  dsimp only
  split
  · exact lawful_handedOn h
  · exact lawful_leaveQueue h d

/-- A slot other than the owner takes a place by its rank (R42, R44, R45). -/
theorem lawful_insert (h : x.OwnershipLawful slots) {c : Slot} (howned : x.owner ≠ none) (hc : x.owner ≠ some c)
    (hheld : x.holds c = true) (hopen : (slots.get c).state = .opened) (hout : c ∉ x.queue)
    {ahead : Slot → Bool} (hahead : ∀ d, ahead d = true → (slots.get c).rank ≤ (slots.get d).rank)
    (hbehind : ∀ d, ahead d = false → (slots.get d).rank ≤ (slots.get c).rank) :
    ({ x with queue := insertBehind ahead c x.queue } : Inp).OwnershipLawful slots := by
  obtain ⟨hroles, hopened, hqueue, hglide⟩ := ownershipLawful_iff.1 h
  refine ownershipLawful_iff.2 ⟨hroles, hopened, ⟨fun hnone => absurd hnone howned,
    nodup_insertBehind hqueue.nodup hout, fun d hd => ?_,
    pairwise_insertBehind (rank := fun d => (slots.get d).rank) hqueue.ranked hahead hbehind⟩, hglide⟩
  rcases mem_insertBehind.1 hd with rfl | hd
  · exact ⟨hc, hheld, hopen⟩
  · exact hqueue.entries d hd

/-- A tap that neither owns nor waits to own comes or goes (R25, R26). -/
theorem lawful_setTap (h : x.OwnershipLawful slots) {d : Slot} (howner : x.owner ≠ some d) (hqueue : d ∉ x.queue)
    {u : Option Tap} (hu : ∀ t ∈ u, t.role ≠ .owner) : (x.setTap d u).OwnershipLawful slots := by
  obtain ⟨hroles, hopened, ⟨horphaned, hnodup, hentries, hranked⟩, hglide⟩ := ownershipLawful_iff.1 h
  refine ownershipLawful_iff.2 ⟨fun c => ?_, hopened, ⟨horphaned, hnodup, fun c hc => ?_, hranked⟩, hglide⟩
  · unfold Inp.ownsByRole
    rw [Inp.setTap_tap]
    split
    · rename_i hcd
      subst hcd
      refine iff_of_false ?_ howner
      cases u with
      | none => nofun
      | some t => simpa using hu t rfl
    · exact hroles c
  · obtain ⟨hne, hheld, hopen⟩ := hentries c hc
    have hcd : c ≠ d := fun hcd => hqueue (hcd ▸ hc)
    refine ⟨hne, ?_, hopen⟩
    rw [Inp.holds, Inp.setTap_tap, if_neg hcd]
    exact hheld

end HandOver

/-! ## The events -/

section Events
variable {slots : Table SlotRec 6} {x : Inp} {v : Env} {e : Ev}

/-- The owner is OPEN, as is every slot of the queue. -/
theorem lawful_claim (h : e.inp.OwnershipLawful v.slots) (d : Slot) (force : Bool) :
    (claimAt d force v e).inp.OwnershipLawful v.slots := by
  obtain ⟨hroles, hopened, hqueue, -⟩ := ownershipLawful_iff.1 h
  by_cases hown : (v.slots.get d).perms.own = false
  · rwa [claimAt_of_not_own hown]
  by_cases hstate : (v.slots.get d).state ≠ .opened
  · rwa [claimAt_of_not_opened hown hstate]
  by_cases htap : e.inp.tap d = none
  · rwa [claimAt_of_no_tap hown hstate htap]
  rw [claimAt_of_may hown hstate htap]
  have hopen := not_not.1 hstate
  have hheld : e.inp.holds d = true := not_not.1 fun hno => htap ((tap_eq_none_iff _ _).2 hno)
  have hin : ∀ c ∈ some d, e.inp.holds c = true ∧ (v.slots.get c).state = .opened := by
    rintro _ ⟨⟩
    exact ⟨hheld, hopen⟩
  split
  next ho =>
    have hempty := hqueue.orphaned ho
    exact lawful_handedOver hroles hin ⟨nofun, by simp [hempty], by simp [hempty], by simp [hempty]⟩
  next o ho =>
    have hforced : QueueFits v.slots (some d) (e.inp.leaveQueue d) := by
      obtain ⟨-, hnodup, hentries, hranked⟩ := hqueue.filter (· != d)
      refine ⟨nofun, hnodup, fun c hc => ⟨?_, (hentries c hc).2⟩, hranked⟩
      rintro ⟨⟩
      exact absurd (List.of_mem_filter hc) (by simp)
    split
    · exact h
    next hod =>
      split
      · have hgiven := lawful_handedOver (x := e.inp.leaveQueue d) hroles hin hforced
        have hqueue' : ((e.inp.leaveQueue d).handedOver (some d)).queue = e.inp.queue.filter (· != d) := by
          rw [handedOver_eq]
          rfl
        have howner' : ((e.inp.leaveQueue d).handedOver (some d)).owner = some d := by rw [handedOver_eq]
        refine lawful_insert hgiven (by rw [howner']; nofun) (by rw [howner']; simpa using Ne.symm hod) ?_
          (hopened o ho) ?_ (fun c hc => ?_) fun c hc => ?_
        · rw [handedOver_holds]
          have howns := (hroles o).2 ho
          rw [ownsByRole_eq] at howns
          rw [Inp.leaveQueue, holds_eq]
          exact Option.isSome_of_any howns
        · rw [hqueue']
          exact fun hmem => (hqueue.entries o (List.mem_of_mem_filter hmem)).1 ho
        · exact Nat.le_of_lt (of_decide_eq_true hc)
        · exact Nat.le_of_not_lt (of_decide_eq_false hc)
      · change (joinQueue v d e.inp).OwnershipLawful v.slots
        unfold joinQueue
        split
        · exact h
        next hout =>
          refine lawful_insert h (by rw [ho]; nofun) (by rw [ho]; simpa using hod) hheld hopen hout
            (fun c hc => of_decide_eq_true hc) fun c hc => Nat.le_of_not_le (of_decide_eq_false hc)

theorem lawful_release (h : e.inp.OwnershipLawful slots) (d : Slot) :
    (releaseAt d v e).inp.OwnershipLawful slots := by
  unfold releaseAt
  split
  · rw [handOn_eq]
    exact lawful_handedOn h
  split
  · exact lawful_leaveQueue h d
  · exact h

/-- Once a slot has left it neither owns the input nor waits for it. -/
theorem not_named_leave (h : e.inp.OwnershipLawful slots) (d : Slot) :
    (e.leave d).inp.owner ≠ some d ∧ d ∉ (e.leave d).inp.queue := by
  obtain ⟨-, -, hqueue, -⟩ := ownershipLawful_iff.1 h
  rw [leave_eq]
  dsimp only
  split
  next ho =>
    have hout : d ∉ e.inp.queue := fun hd => (hqueue.entries d hd).1 ho
    rw [handedOver_eq]
    exact ⟨fun hhead => hout (List.mem_of_mem_head? hhead), fun hd => hout (List.mem_of_mem_tail hd)⟩
  next ho => exact ⟨ho, by simp⟩

theorem lawful_retire (h : e.inp.OwnershipLawful slots) (d : Slot) :
    (e.retire d).inp.OwnershipLawful slots := by
  obtain ⟨howner, hqueue⟩ := not_named_leave h d
  exact lawful_setTap (lawful_leave h d) howner hqueue nofun

/-- A slot that holds no tap is not named by the input. -/
theorem not_named_of_not_holds (h : x.OwnershipLawful slots) {d : Slot} (hd : ¬ x.holds d = true) :
    x.owner ≠ some d ∧ d ∉ x.queue := by
  obtain ⟨hroles, -, hqueue, -⟩ := ownershipLawful_iff.1 h
  refine ⟨fun ho => hd ?_, fun hq => hd (hqueue.entries d hq).2.1⟩
  have howns := (hroles d).2 ho
  rw [ownsByRole_eq] at howns
  rw [holds_eq]
  exact Option.isSome_of_any howns

theorem lawful_openTap (h : e.inp.OwnershipLawful slots) (d : Slot) (level : Option (BitVec 16)) :
    (openTapAt d level v e).inp.OwnershipLawful slots := by
  by_cases hd : e.inp.holds d = true
  · rwa [openTapAt_of_holds hd]
  · rw [openTapAt_of_not_holds hd]
    obtain ⟨howner, hqueue⟩ := not_named_of_not_holds h hd
    refine lawful_setTap h howner hqueue ?_
    rintro _ ⟨⟩
    exact tracking_not_owner _ _

theorem lawful_setLevel (h : e.inp.OwnershipLawful slots) (d : Slot) (relative : Bool) (w : BitVec 16) :
    (setLevelAt d relative w v e).inp.OwnershipLawful slots := by
  cases ht : e.inp.tap d with
  | none => rwa [setLevelAt_of_none ht]
  | some t =>
    rw [setLevelAt_of_some ht]
    have hglide := (ownershipLawful_iff.1 h).2.2.2
    refine lawful_of_seats h (seated_setTap ht ?_) (hglide.of_same rfl rfl)
    exact (role_of_levels (levels_handNow ..)).trans (role_setLevel ..)

theorem lawful_setTapMute (h : e.inp.OwnershipLawful slots) (d : Slot) (on : Bool) :
    (setTapMuteAt d on v e).inp.OwnershipLawful slots := by
  unfold setTapMuteAt
  split
  · exact h
  next t ht =>
    have hglide := (ownershipLawful_iff.1 h).2.2.2
    exact lawful_of_seats h (seated_setTap (x := e.inp) ht Iff.rfl) (hglide.of_same rfl rfl)

/-! ### The glide's owner -/

theorem ownedGlide_clampGlide (h : OwnedGlide e.inp) : OwnedGlide (e.clampGlide v).inp := by
  unfold Ev.clampGlide
  split
  · exact h
  next g hg =>
    have hclamped : OwnedGlide { e.inp with glide := some { g with
        target := min (maxGain e.inp.mode) g.target
        staged := g.staged.map fun q => { q with target := min (maxGain e.inp.mode) q.target } } } := by
      refine h.of_kept rfl fun g' hg' => ⟨g, hg, ?_⟩
      obtain rfl := Option.some.inj hg'
      exact ⟨rfl, Option.isSome_map⟩
    dsimp only
    split
    · refine ownedGlide_moves.endGlide ?_
      exact hclamped
    · exact hclamped

theorem ownedGlide_startSettling (h : OwnedGlide x) (y : Sys) : OwnedGlide (x.startSettling y) := by
  unfold Inp.startSettling
  split
  · exact h.of_same rfl rfl
  · exact h

theorem ownedGlide_toIssuer (h : OwnedGlide e.inp) (i : Issuer) : OwnedGlide (e.toIssuer v i).inp := by
  unfold Ev.toIssuer
  split
  · refine ownedGlide_moves.stepAcked ?_
    exact h.of_same rfl rfl
  · exact ownedGlide_moves.stepAcked h
  · rw [Ev.mod_inp]
    split
    · exact ownedGlide_startSettling h _
    · exact h
  · split
    · have hcleared : OwnedGlide { e.inp with recheck := false, fault := false } := h.of_same rfl rfl
      rw [Ev.mod_inp]
      unfold Inp.recheckDone
      dsimp only
      split
      · split
        · exact h.of_same rfl rfl
        · exact ownedGlide_startSettling hcleared _
      · exact hcleared
    · exact h
  · exact h

theorem ownedGlide_issueRecheckPhantom (h : OwnedGlide e.inp) : OwnedGlide (e.issueRecheckPhantom v).inp := by
  unfold Ev.issueRecheckPhantom
  split
  · split <;> exact h.of_same rfl rfl
  · exact h.of_same rfl rfl

theorem ownedGlide_moveOn (h : OwnedGlide e.inp) (i : Issuer) : OwnedGlide (e.moveOn v i).inp := by
  unfold Ev.moveOn
  split
  · refine ownedGlide_issueRecheckPhantom ?_
    exact h.of_same rfl rfl
  · exact h.of_same rfl rfl
  · exact h.of_same rfl rfl
  · refine ownedGlide_moves.pump ?_
    exact h.of_same rfl rfl

theorem record_rest (w : Write) (x : Inp) :
    (x.record w).owner = x.owner ∧ (x.record w).queue = x.queue ∧ (x.record w).glide = x.glide := by
  cases w <;> exact ⟨rfl, rfl, rfl⟩

/-- The values recorded change no seat (R6, R29). -/
theorem lawful_recordTracked (h : x.OwnershipLawful slots) (align : Nat) (w : Write) :
    (x.recordTracked align w).OwnershipLawful slots := by
  obtain ⟨howner, hqueue, hglide⟩ := record_rest w x
  have hrecorded : (x.record w).OwnershipLawful slots := by
    refine lawful_of_seats h ⟨fun d => ?_, howner, hqueue⟩ ((ownershipLawful_iff.1 h).2.2.2.of_same howner hglide)
    rw [seat, seat, Inp.tap, Inp.tap, record_taps]
  unfold Inp.recordTracked
  dsimp only
  split
  · exact hrecorded
  · refine lawful_of_seats hrecorded (seated_map rfl rfl rfl fun t => ?_)
      ((ownershipLawful_iff.1 hrecorded).2.2.2.of_same rfl rfl)
    exact (role_of_levels (levels_handAligned ..)).trans (role_track ..)

theorem lawful_ack (h : e.inp.OwnershipLawful slots) : (ackAt v e).inp.OwnershipLawful slots := by
  unfold ackAt
  split
  · exact h
  next o _ =>
    have hrecorded := lawful_recordTracked h v.sys.align o.write
    extract_lets old e₁ e₂
    have hmoved : FrontMoved e₁.inp e₂.inp ∧ OwnedGlide e₂.inp := by
      have howned := (ownershipLawful_iff.1 hrecorded).2.2.2
      unfold e₂
      split
      · exact ⟨.refl _, howned⟩
      · exact ⟨FrontMoved.clampGlide (.refl _), ownedGlide_clampGlide howned⟩
    obtain ⟨hfront, howned⟩ := hmoved
    have hclamped : e₂.inp.OwnershipLawful slots :=
      lawful_of_seats hrecorded (seated_of_held (held_of_frontMoved hfront)) howned
    refine lawful_of_seats ?_ (seated_of_held (held_of_frontMoved
      (FrontMoved.moveOn (frontMoved_toIssuer (v := v) (e := e₂) o.issuer) o.issuer)))
      (ownedGlide_moveOn (ownedGlide_toIssuer howned _) _)
    split
    · exact lawful_of_seats hclamped (seated_map rfl rfl rfl (role_raiseTrim _)) (howned.of_same rfl rfl)
    · exact hclamped

end Events

/-! ### The events that bear on no seat -/

section Quiet
variable {slots : Table SlotRec 6} {x : Inp} {v : Env} {e : Ev}

theorem ownedGlide_of_held {y : Inp} (hy : HeldKept x y) (h : x.owner.isSome = true) : OwnedGlide y :=
  ownedGlide_of_owner (by rwa [(seated_of_held hy).owner])

theorem ownedGlide_setGain (h : OwnedGlide e.inp) (d : Slot) (relative : Bool) (w : Byte) (rate : Option Byte) :
    OwnedGlide (setGainAt d relative w rate v e).inp := by
  by_cases ho : e.inp.owner = some d
  · exact ownedGlide_of_held (heldKept_setGain d relative w rate) (by rw [ho]; rfl)
  · rwa [setGainAt, if_pos ho]

theorem ownedGlide_stopGlide (h : OwnedGlide e.inp) (d : Slot) : OwnedGlide (stopGlideAt d v e).inp := by
  by_cases ho : e.inp.owner = some d
  · exact ownedGlide_of_held (heldKept_stopGlide d) (by rw [ho]; rfl)
  · rwa [stopGlideAt, if_pos ho]

theorem ownedGlide_request (h : OwnedGlide e.inp) (d : Slot) (value : FrontValue) :
    OwnedGlide (requestAt d value v e).inp := by
  by_cases ho : e.inp.owner = some d
  · exact ownedGlide_of_held (heldKept_request d value) (by rw [ho]; rfl)
  · rwa [requestAt, if_pos ho]

theorem ownedGlide_recheck (h : OwnedGlide e.inp) (d : Slot) : OwnedGlide (recheckAt d v e).inp := by
  unfold recheckAt
  split
  · exact h
  split
  · exact h
  · refine ownedGlide_moves.join (g := .recheck) ?_ (by decide)
    exact h.of_same rfl rfl

/-- A staged retarget stands only beside an owner, whose glide it becomes (R82). -/
theorem ownedGlide_bundleEnd (h : OwnedGlide e.inp) : OwnedGlide (bundleEndAt v e).inp := by
  unfold bundleEndAt
  split
  · exact h
  next g hg =>
    split
    · exact ownedGlide_moves.startGlide h hg
    next q _ hq => exact ownedGlide_of_held (heldKept_applyRetarget g q) (h g hg (.inr (by rw [hq]; rfl)))
    · exact h

theorem ownedGlide_fail (h : OwnedGlide x) : OwnedGlide (failAt v ⟨x, [], .done⟩).inp := by
  cases ho : x.outstanding with
  | none => rwa [failAt_of_none ho]
  | some o =>
    by_cases hl : o.left = 0
    · rw [failAt_due ho hl]
      exact ownedGlide_moves.pump (e := ⟨failed o x, _, _⟩) nofun
    · rwa [failAt_early ho hl]

theorem ownedGlide_muteRampEnd (h : OwnedGlide e.inp) : OwnedGlide (muteRampEndAt v e).inp := by
  unfold muteRampEndAt
  split
  · split
    · split
      · exact h.of_same rfl rfl
      · refine ownedGlide_moves.join (g := .switching) ?_ (by decide)
        exact h.of_same rfl rfl
    · exact h
  · exact h

theorem ownedGlide_startSequence (h : OwnedGlide x) (value : FrontValue) (d : Slot) :
    OwnedGlide (x.startSequence value d) := by
  refine h.of_kept rfl fun g' hg' => ?_
  obtain ⟨g, hg, rfl⟩ := Option.map_eq_some_iff.1 hg'
  refine ⟨g, hg, ?_⟩
  split <;> exact ⟨rfl, rfl⟩

theorem ownedGlide_recheckRequest (h : OwnedGlide e.inp) (q : Request) : OwnedGlide (e.recheckRequest v q).inp := by
  unfold Ev.recheckRequest
  dsimp only
  split
  · exact h.of_same rfl rfl
  split
  · refine ownedGlide_startSequence ?_ _ _
    exact h.of_same rfl rfl
  · exact h.of_same rfl rfl
  · exact h.of_same rfl rfl

theorem ownedGlide_unmuteRampEnd (h : OwnedGlide e.inp) : OwnedGlide (unmuteRampEndAt v e).inp := by
  unfold unmuteRampEndAt
  extract_lets e₁ e₂
  split
  · have hidle : OwnedGlide e₁.inp := h.of_same rfl rfl
    have hjudged : OwnedGlide e₂.inp := by
      unfold e₂
      split
      · exact ownedGlide_recheckRequest hidle _
      · exact hidle
    split
    · exact ownedGlide_moves.resumeGlide hjudged
    · exact hjudged
  · exact h

/-- A guard glide is not the owner's (R92). -/
theorem ownedGlide_guardGlide (target : Nat) : OwnedGlide (e.guardGlide v target).inp := by
  have hguard (step : StepState) : OwnedGlide
      { e.inp with glide := some ⟨target, 2, .guard, .stepping, step, none, none⟩ } := by
    rintro _ ⟨⟩ (hby | hby) <;> cases hby
  unfold Ev.guardGlide
  extract_lets step e'
  split
  · refine ownedGlide_moves.readyStep ?_
    exact hguard step
  · exact hguard step

theorem ownedGlide_clip (h : OwnedGlide e.inp) : OwnedGlide (clipAt v e).inp := by
  unfold clipAt Ev.threshold
  dsimp only
  split
  · split
    · split
      · exact ownedGlide_guardGlide _
      · exact h.of_same rfl rfl
    · exact h.of_same rfl rfl
  · exact h

theorem ownedGlide_of_quiet {i : InputEvent} (hi : quiet i = true) (v : Env) (h : OwnedGlide x) :
    OwnedGlide (i.run v ⟨x, [], .done⟩).inp := by
  cases i with
  | setGain d relative w rate => exact ownedGlide_setGain (v := v) (e := ⟨x, [], .done⟩) h d relative w rate
  | stopGlide d => exact ownedGlide_stopGlide (e := ⟨x, [], .done⟩) h d
  | request d value => exact ownedGlide_request (e := ⟨x, [], .done⟩) h d value
  | recheck d => exact ownedGlide_recheck (e := ⟨x, [], .done⟩) h d
  | configureInput c =>
    dsimp only [InputEvent.run]
    unfold configureInputAt
    split
    · exact h
    · exact h.of_same rfl rfl
  | bundleEnd => exact ownedGlide_bundleEnd (e := ⟨x, [], .done⟩) h
  | fail => exact ownedGlide_fail h
  | muteRampEnd => exact ownedGlide_muteRampEnd (e := ⟨x, [], .done⟩) h
  | settleExpiry =>
    dsimp only [InputEvent.run]
    unfold settleExpiryAt
    split
    · exact h.of_same rfl rfl
    · exact h
  | unmuteRampEnd => exact ownedGlide_unmuteRampEnd (e := ⟨x, [], .done⟩) h
  | stepTimer => exact ownedGlide_moves.stepTimerAt (e := ⟨x, [], .done⟩) h
  | clip => exact ownedGlide_clip (e := ⟨x, [], .done⟩) h
  | windowExpiry =>
    dsimp only [InputEvent.run]
    unfold windowExpiryAt
    split
    · exact h.of_same rfl rfl
    · exact h
  | _ => cases hi

/-- Every event of an input keeps the laws of its ownership. -/
theorem lawful_event (i : InputEvent) (h : x.OwnershipLawful v.slots) :
    (i.run v ⟨x, [], .done⟩).inp.OwnershipLawful v.slots := by
  by_cases hi : quiet i = true
  · exact lawful_of_seats h (seated_of_held (heldKept_of_quiet hi v x))
      (ownedGlide_of_quiet hi v (ownershipLawful_iff.1 h).2.2.2)
  cases i with
  | openTap d level => exact lawful_openTap (v := v) (e := ⟨x, [], .done⟩) h d level
  | closeTap d =>
    dsimp only [InputEvent.run]
    unfold closeTapAt
    split
    · exact lawful_retire (e := ⟨x, [], .done⟩) h d
    · exact h
  | setLevel d relative w => exact lawful_setLevel (v := v) (e := ⟨x, [], .done⟩) h d relative w
  | setTapMute d on => exact lawful_setTapMute (v := v) (e := ⟨x, [], .done⟩) h d on
  | claim d force => exact lawful_claim (e := ⟨x, [], .done⟩) h d force
  | release d => exact lawful_release (v := v) (e := ⟨x, [], .done⟩) h d
  | ack => exact lawful_ack h
  | leave d => exact lawful_leave (e := ⟨x, [], .done⟩) h d
  | retire d => exact lawful_retire (e := ⟨x, [], .done⟩) h d
  | _ => exact absurd rfl hi

end Quiet

/-! ## Every step -/

section State
variable {s : State}

/-- The law looks at the slots that the input names alone. -/
theorem lawful_of_desks {a b : Table SlotRec 6} {x : Inp} (h : x.OwnershipLawful a)
    (hab : ∀ d, x.owner = some d ∨ d ∈ x.queue → DeskKept (a.get d) (b.get d)) : x.OwnershipLawful b := by
  obtain ⟨hroles, hopened, ⟨horphaned, hnodup, hentries, hranked⟩, hglide⟩ := ownershipLawful_iff.1 h
  have hkept : ∀ d ∈ x.queue, (b.get d).state = .opened ∧ (b.get d).rank = (a.get d).rank := fun d hd =>
    hab d (.inr hd) (hentries d hd).2.2
  refine ownershipLawful_iff.2 ⟨hroles, fun d hd => (hab d (.inl hd) (hopened d hd)).1, ⟨horphaned, hnodup,
    fun d hd => ?_, hranked.imp_of_mem fun {c d} hc hd hcd => ?_⟩, hglide⟩
  · obtain ⟨hne, hheld, -⟩ := hentries d hd
    exact ⟨hne, hheld, (hkept d hd).1⟩
  · rwa [(hkept c hc).2, (hkept d hd).2]

theorem lawful_atInput (h : s.OwnershipLawful) (i : InputEvent) (k : Input) :
    (s.atInput k i.run).OwnershipLawful := by
  intro j
  have hdesks : ∀ d, DeskKept (s.slots.get d) ((s.atInput k i.run).slots.get d) := fun d =>
    .of_notices (State.commit_slot s k (s.evAt k i.run) d)
  refine lawful_of_desks (a := s.slots) ?_ fun d _ => hdesks d
  by_cases hj : j = k
  · subst hj
    rw [State.atInput, State.commit_inp_self]
    exact lawful_event (v := s.env) i (h j)
  · rw [State.atInput, State.commit_inp_ne s _ hj]
    exact h j

theorem lawful_atInputs (h : s.OwnershipLawful) (p : Inp → Bool) (i : InputEvent) :
    (s.atInputs p i.run).OwnershipLawful :=
  State.atInputs_kept (P := State.OwnershipLawful) p _ (fun _ k ht => lawful_atInput ht i k) s h

/-- A slot that no input names may become anything. -/
theorem lawful_modSlot (h : s.OwnershipLawful) {d : Slot} (hd : ∀ k, (s.inp k).owner ≠ some d ∧ d ∉ (s.inp k).queue)
    (f : SlotRec → SlotRec) : (s.modSlot d f).OwnershipLawful := by
  intro k
  obtain ⟨howner, hqueue⟩ := hd k
  refine lawful_of_desks (h k) fun c hc => ?_
  have hcd : c ≠ d := by
    rintro rfl
    exact hc.elim howner hqueue
  have hslot := State.modSlot_slot_ne s f hcd
  rw [State.slot, State.slot] at hslot
  rw [hslot]
  exact .refl _

theorem lawful_setInp (h : s.OwnershipLawful) (k : Input) {x : Inp} (hx : x.OwnershipLawful s.slots) :
    (s.setInp k x).OwnershipLawful := by
  intro j
  rw [State.setInp_inp, State.setInp_slots]
  split
  · exact hx
  · exact h j

theorem lawful_closeSlot (h : s.OwnershipLawful) (d : Slot) : (s.closeSlot d).OwnershipLawful := by
  have hretired := lawful_atInputs h (fun x => x.holds d) (.retire d)
  have hvisited := visited_atInputs (f := (InputEvent.retire d).run) (fun _ _ _ _ => rfl) s (fun x => x.holds d)
  refine lawful_modSlot hretired (fun k => not_named_of_not_holds (hretired k) ?_) _
  by_cases hk : (s.inp k).holds d = true
  · rw [hvisited.visited k hk]
    simp [State.evAt, InputEvent.run, retire_holds]
  · rwa [hvisited.unvisited k hk]

theorem lawful_absence (h : s.OwnershipLawful) (d : Slot) : (s.absence d).OwnershipLawful := by
  have hleft := lawful_atInputs h (fun x => x.owner == some d || x.queue.contains d) (.leave d)
  have hvisited := visited_atInputs (f := (InputEvent.leave d).run) (fun _ _ _ _ => rfl) s
    (fun x => x.owner == some d || x.queue.contains d)
  refine lawful_modSlot hleft (fun k => ?_) _
  by_cases hk : ((s.inp k).owner == some d || (s.inp k).queue.contains d) = true
  · rw [hvisited.visited k hk]
    exact not_named_leave (e := ⟨s.inp k, [], .done⟩) (h k) d
  · rw [hvisited.unvisited k hk]
    simpa using hk

/-- After a control reset no tap has role OWNER (R39, R60). -/
theorem lawful_controlReset (slots : Table SlotRec 6) {x : Inp} (h : OwnerRoles x) :
    x.controlReset.OwnershipLawful slots := by
  rw [inp_controlReset]
  refine ownershipLawful_iff.2 ⟨fun d => ?_, nofun, ⟨fun _ => rfl, List.nodup_nil, nofun, .nil⟩, nofun⟩
  refine iff_of_false ?_ nofun
  have hrole := h d
  unfold Inp.ownsByRole at hrole ⊢
  unfold Inp.tap at hrole ⊢
  rw [Table.get_ofFn, Option.any_map]
  by_cases ho : x.owner = some d
  · cases x.taps.get d <;> simp [ho]
  · simpa [ho] using mt hrole.1 ho

theorem lawful_reset (slots : Table SlotRec 6) (rate96 : Bool) (n : Nat) :
    Inp.OwnershipLawful slots { Inp.reset rate96 with unanswered := n } := by
  refine ownershipLawful_iff.2 ⟨fun d => iff_of_false ?_ nofun, nofun,
    ⟨fun _ => rfl, List.nodup_nil, nofun, .nil⟩, nofun⟩
  simp [Inp.ownsByRole, Inp.tap, Inp.reset]

theorem lawful_tick {slots : Table SlotRec 6} {x : Inp} (h : x.OwnershipLawful slots) :
    x.tick.OwnershipLawful slots := by
  refine lawful_of_seats h ⟨fun _ => rfl, rfl, rfl⟩ ((ownershipLawful_iff.1 h).2.2.2.of_kept rfl fun g' hg' => ?_)
  obtain ⟨g, hg, rfl⟩ := Option.map_eq_some_iff.1 hg'
  exact ⟨g, hg, rfl, rfl⟩

/-- The laws of ownership are a law of the whole part, for they look at the desks. -/
theorem ownership_law : StepLaw State.OwnershipLawful where
  left s t hleft h k := by
    rw [State.inp, hleft.inputs]
    exact lawful_of_desks (h k) fun d _ => hleft.desks d
  event s i k h := lawful_atInput h i k
  sample s k w h := lawful_setInp h k (lawful_of_seats (h k)
    (seated_map rfl rfl rfl fun t => role_of_levels (levels_advance _ t))
    ((ownershipLawful_iff.1 (h k)).2.2.2.of_same rfl rfl))
  released s k d n h := lawful_setInp h k (lawful_of_seats (h k)
    (seated_modTap d fun t => role_of_levels (levels_releaseNth n t))
    ((ownershipLawful_iff.1 (h k)).2.2.2.of_same rfl rfl))
  late s k h := lawful_setInp h k (lawful_of_seats (h k) ⟨fun _ => rfl, rfl, rfl⟩
    ((ownershipLawful_iff.1 (h k)).2.2.2.of_same rfl rfl))
  closeSlot s d h := lawful_closeSlot h d
  absence s d h := lawful_absence h d
  controlReset s h k := by
    rw [State.inp, State.controlReset, Table.get_map]
    exact lawful_controlReset _ (ownershipLawful_iff.1 (h k)).1
  powerOn s := by
    refine nextMeets fun k => ?_
    rw [State.inp, Table.get_map]
    exact lawful_reset _ _ _
  tick s h k := by
    rw [tick_inp]
    refine lawful_of_desks (lawful_tick (h k)) fun d _ => ?_
    have hslot := tick_slot s d
    rw [State.slot, State.slot] at hslot
    rw [hslot]
    exact .of_same rfl rfl

end State

/-- Settles O55: the laws pass through every event of an input, through the desks that it names, and through both
resets. -/
theorem ownershipKept : Obligations.OwnershipKept := fun _ _ h hstep => ownership_law.step_kept h hstep

end Sys2Proof.OwnershipProofs
end

section
/-! PROOFS. Sequencer, command path and glide in agreement (R5, R14 to R17, R20, R77, R83, R87, R91): the law but for
the clause of a free path as a shape, how a path that moves on restores the clause, and what each event does to the
shape. -/

namespace Sys2Proof.FrontEndProofs

open Sys2Proof Sys2Proof.Machine Sys2Proof.TapProofs Sys2Proof.GlideProofs Sys2Proof.StepProofs
  Sys2Proof.PathProofs Sys2Proof.HandOverProofs Sys2Proof.ResetProofs

/-! ## The shape -/

/-- The law of the front end but for the clause that nothing waits on a free path. -/
structure FrontShape (x : Inp) : Prop where
  busy : x.inFlight.isSome = true ↔ x.seq ≠ .idle
  request : x.request.isSome = true → x.seq ≠ .idle
  settling : x.settleLeft.isSome = true ↔ x.seq = .settling
  halted : x.seq = .halted → x.fault = true
  nodup : x.waiting.Nodup
  recheck : x.recheck = true ↔ .recheck ∈ x.waiting ∨ x.issuing Issuer.isRecheck = true
  oneRecheck : ¬ (.recheck ∈ x.waiting ∧ x.issuing Issuer.isRecheck = true)
  switching : x.seq = .switching ↔ .switching ∈ x.waiting ∨ x.issuing (· == .switching) = true
  oneSwitching : ¬ (.switching ∈ x.waiting ∧ x.issuing (· == .switching) = true)
  ready : .step ∈ x.waiting ↔ x.stepIs .ready = true
  inFlightStep : x.stepIs .outstanding = true → x.issuing Issuer.isStep = true
  readyIdle : .step ∈ x.waiting → x.seq = .idle
  started : .startUp ∉ x.waiting
  noGlide : x.fault = true → x.glide = none
  glide : x.GlideLawful

/-- Nothing waits on a free path (R5). -/
def PathFree (x : Inp) : Prop := x.outstanding = none → x.waiting = []

theorem frontEndLawful_iff (x : Inp) : x.FrontEndLawful ↔ PathFree x ∧ FrontShape x := by
  constructor
  · rintro ⟨⟨hbusy, hrequest, hsettling, hhalted⟩, ⟨hnodup, hfree, hrecheck, hone, hswitching, honeSwitching,
      hready, hstep, hidle, hstarted, hglide⟩, hlawful⟩
    refine ⟨hfree, ⟨hbusy, hrequest, hsettling, hhalted, hnodup, hrecheck, fun hboth => ?_, hswitching,
      honeSwitching, hready, hstep, hidle, hstarted, hglide, hlawful⟩⟩
    exact hone (hrecheck.2 (.inl hboth.1)) hboth
  · rintro ⟨hfree, ⟨hbusy, hrequest, hsettling, hhalted, hnodup, hrecheck, hone, hswitching,
      honeSwitching, hready, hstep, hidle, hstarted, hglide, hlawful⟩⟩
    exact ⟨⟨hbusy, hrequest, hsettling, hhalted⟩, ⟨hnodup, hfree, hrecheck, fun _ => hone, hswitching,
      honeSwitching, hready, hstep, hidle, hstarted, hglide⟩, hlawful⟩

/-- What the law of the front end looks at. -/
def front (x : Inp) := (x.inFlight, x.request, x.seq, x.settleLeft, x.fault, x.recheck, x.waiting, x.outstanding,
  x.glide)

section Shape
variable {x y : Inp} {v : Env} {e : Ev}

theorem FrontShape.congr (h : FrontShape x) (hy : front y = front x) : FrontShape y := by
  simp only [front, Prod.mk.injEq] at hy
  obtain ⟨h1, h2, h3, h4, h5, h6, h7, h8, h9⟩ := hy
  obtain ⟨hbusy, hrequest, hsettling, hhalted, hnodup, hrecheck, hone, hswitching,
      honeSwitching, hready, hstep, hidle, hstarted, hglide, hlawful⟩ := h
  constructor <;> simpa only [Inp.issuing, Inp.stepIs, Inp.GlideLawful, h1, h2, h3, h4, h5, h6, h7, h8, h9]

theorem lawful_congr (h : x.FrontEndLawful) (hy : front y = front x) : y.FrontEndLawful := by
  obtain ⟨hfree, hshape⟩ := (frontEndLawful_iff x).1 h
  have hpath : y.outstanding = x.outstanding ∧ y.waiting = x.waiting := by
    simp only [front, Prod.mk.injEq] at hy
    tauto
  refine (frontEndLawful_iff y).2 ⟨?_, hshape.congr hy⟩
  unfold PathFree
  rwa [hpath.1, hpath.2]

/-- A glide that shows the same step, and is as lawful, may stand in for the old one. -/
theorem FrontShape.withGlide (h : FrontShape x) {g g' : Glide} (hg : x.glide = some g) (hstep : g'.step = g.step)
    (htimer : g'.timer.isSome = true → g'.step = .absent)
    (hwaiting : g'.state = .waiting →
      g'.source = .owner ∧ g'.step = .absent ∧ g'.timer = none ∧ g'.staged = none) :
    FrontShape { x with glide := some g' } := by
  have hstepIs (st : StepState) : Inp.stepIs { x with glide := some g' } st = x.stepIs st := by
    simp [Inp.stepIs, hg, hstep]
  refine { h with ready := ?_, inFlightStep := ?_, noGlide := ?_, glide := ?_ }
  · rw [hstepIs]
    exact h.ready
  · rw [hstepIs]
    exact h.inFlightStep
  · intro hf
    rw [h.noGlide hf] at hg
    cases hg
  · rintro _ ⟨⟩
    exact ⟨htimer, hwaiting⟩

/-- With the glide a ready step goes (R5, R85, R90). -/
theorem FrontShape.withoutGlide (h : FrontShape x) : FrontShape x.withoutGlide := by
  have hrecheck : .recheck ∈ x.withoutGlide.waiting ↔ .recheck ∈ x.waiting := by simp [Inp.withoutGlide]
  have hswitching : .switching ∈ x.withoutGlide.waiting ↔ .switching ∈ x.waiting := by simp [Inp.withoutGlide]
  refine { h with
    nodup := h.nodup.filter _, recheck := ?_, oneRecheck := ?_, switching := ?_, oneSwitching := ?_
    ready := by simp [Inp.withoutGlide, Inp.stepIs], inFlightStep := nofun
    readyIdle := fun hw => h.readyIdle (List.mem_of_mem_filter hw)
    started := fun hw => h.started (List.mem_of_mem_filter hw)
    noGlide := fun _ => rfl, glide := nofun }
  · exact h.recheck.trans (or_congr_left hrecheck.symm)
  · exact fun hboth => h.oneRecheck ⟨hrecheck.1 hboth.1, hboth.2⟩
  · exact h.switching.trans (or_congr_left hswitching.symm)
  · exact fun hboth => h.oneSwitching ⟨hswitching.1 hboth.1, hboth.2⟩

theorem FrontShape.endGlide (h : FrontShape e.inp) : FrontShape (e.endGlide v).inp := by
  cases hg : e.inp.glide with
  | none => rwa [endGlide_of_none hg]
  | some g =>
    rw [endGlide_of_glide hg]
    exact h.withoutGlide

/-! ## How a path moves on -/

/-- No step waits in a list that one heads. -/
theorem FrontShape.rest {a : Group} {rest : List Group} (h : FrontShape { x with waiting := a :: rest }) :
    a ∉ rest ∧ rest.Nodup := List.nodup_cons.1 h.nodup

/-- The first write of the oldest group is issued on a free path, and the group no longer waits (R5). -/
theorem lawful_issued {a : Group} {rest : List Group} (h : FrontShape { x with waiting := a :: rest })
    (hnone : x.outstanding = none) {o : Outstanding} (hrecheck : o.issuer.isRecheck = true ↔ a = .recheck)
    (hswitching : o.issuer = .switching ↔ a = .switching) (ha : a ≠ .step) :
    Inp.FrontEndLawful { x with outstanding := some o, waiting := rest } := by
  obtain ⟨hout, hnodup⟩ := h.rest
  have hissuing (p : Issuer → Bool) : x.issuing p = false := by simp [Inp.issuing, hnone]
  have hissued (p : Issuer → Bool) :
      Inp.issuing { x with outstanding := some o, waiting := rest } p = p o.issuer := rfl
  have hbefore (p : Issuer → Bool) : Inp.issuing { x with waiting := a :: rest } p = false := hissuing p
  refine (frontEndLawful_iff _).2 ⟨nofun, { h with
    nodup := hnodup, recheck := ?_, oneRecheck := ?_, switching := ?_, oneSwitching := ?_, ready := ?_
    inFlightStep := ?_, readyIdle := fun hw => h.readyIdle (.tail _ hw)
    started := fun hw => h.started (.tail _ hw) }⟩
  · have hr := h.recheck
    rw [hbefore] at hr
    rw [hissued, hrecheck]
    simp only [List.mem_cons, Bool.false_eq_true, or_false] at hr
    exact hr.trans (or_comm.trans (or_congr_right eq_comm))
  · rw [hissued, hrecheck]
    rintro ⟨hr, rfl⟩
    exact hout hr
  · have hs := h.switching
    rw [hbefore] at hs
    rw [hissued, beq_iff_eq, hswitching]
    simp only [List.mem_cons, Bool.false_eq_true, or_false] at hs
    exact hs.trans (or_comm.trans (or_congr_right eq_comm))
  · rw [hissued, beq_iff_eq, hswitching]
    rintro ⟨hr, rfl⟩
    exact hout hr
  · refine Iff.trans ?_ h.ready
    simp [Ne.symm ha]
  · intro hstep
    have hno := h.inFlightStep hstep
    rw [hbefore] at hno
    cases hno

theorem FrontShape.free (h : FrontShape x) (hnone : x.outstanding = none) :
    FrontShape { x with outstanding := none } := by
  have hx : { x with outstanding := none } = x := by rw [← hnone]
  rwa [hx]

/-- The step that heads the list has gone with its glide. -/
theorem FrontShape.stepGone {rest : List Group} (h : FrontShape { x with waiting := .step :: rest }) :
    FrontShape { x with waiting := rest, glide := none } := by
  have hfilter : (Group.step :: rest).filter (· != .step) = rest := by
    rw [List.filter_cons_of_neg (by simp), List.filter_eq_self]
    rintro a ha
    have hne : a ≠ .step := fun hstep => h.rest.1 (hstep ▸ ha)
    simpa using hne
  have hgone := h.withoutGlide
  unfold Inp.withoutGlide at hgone
  rwa [hfilter] at hgone

/-- A ready step is issued on a free path (R83). -/
theorem lawful_stepIssued {rest : List Group} (h : FrontShape { x with waiting := .step :: rest })
    (hnone : x.outstanding = none) {g : Glide} (hg : x.glide = some g) (hready : g.step = .ready) (w : Write) :
    Inp.FrontEndLawful { x with
      outstanding := some ⟨w, .step g.source, ackTimeout⟩
      waiting := rest, glide := some { g with step := .outstanding } } := by
  obtain ⟨hout, -⟩ := h.rest
  obtain ⟨htimer, hwaiting⟩ := h.glide g hg
  refine (frontEndLawful_iff _).2 ⟨nofun, { h.stepGone.free hnone with
    ready := iff_of_false hout nofun, inFlightStep := fun _ => rfl, readyIdle := fun hw => absurd hw hout
    noGlide := fun hf => ?_, glide := ?_ }⟩
  · have hno := h.noGlide hf
    rw [hg] at hno
    cases hno
  · rintro _ ⟨⟩
    refine ⟨fun ht => ?_, fun hw => ?_⟩
    · rw [htimer ht] at hready
      cases hready
    · rw [(hwaiting hw).2.1] at hready
      cases hready

/-- The oldest group that can be issued is issued on a free path, or none waits (R5, R83). -/
theorem lawful_issueOldest (gs : List Group) (h : FrontShape { e.inp with waiting := gs })
    (hnone : e.inp.outstanding = none) : (e.issueOldest v gs).inp.FrontEndLawful := by
  induction gs generalizing e with
  | nil => exact (frontEndLawful_iff _).2 ⟨fun _ => rfl, h⟩
  | cons a rest ih =>
    cases a with
    | step =>
      obtain ⟨g, hg, hready⟩ : ∃ g, e.inp.glide = some g ∧ g.step = .ready := by
        simpa [Inp.stepIs, Option.any_eq_true] using h.ready.1 (.head _)
      unfold Ev.issueOldest
      simp only [hg]
      split
      · rw [endGlide_of_glide hg]
        exact ih h.stepGone hnone
      · exact lawful_stepIssued h hnone hg hready _
    | switching =>
      have hsome : e.inp.inFlight.isSome = true := h.busy.2 (by rw [h.switching.2 (.inl (.head _))]; nofun)
      obtain ⟨c, hc⟩ := Option.isSome_iff_exists.1 hsome
      unfold Ev.issueOldest
      simp only [Inp.switchingWrite, hc, Option.map_some]
      exact lawful_issued h hnone (by simp [Issuer.isRecheck]) (by simp) nofun
    | recheck => exact lawful_issued h hnone (by simp [Issuer.isRecheck]) (by simp) nofun
    | startUp => exact absurd (.head _) h.started

theorem lawful_pump (h : FrontShape e.inp) : (e.pump v).inp.FrontEndLawful := by
  unfold Ev.pump
  split
  next hsome =>
    refine (frontEndLawful_iff _).2 ⟨fun hnone => ?_, h⟩
    rw [hnone] at hsome
    cases hsome
  next hnone => exact lawful_issueOldest _ h (by simpa using hnone)

theorem FrontShape.of_lawful (h : x.FrontEndLawful) : FrontShape x := ((frontEndLawful_iff x).1 h).2

/-- Where nothing new waits, the shape is all that there is to show. -/
theorem lawful_of_shape (h : x.FrontEndLawful) (hy : FrontShape y) (houtstanding : y.outstanding = x.outstanding)
    (hwaiting : x.waiting = [] → y.waiting = []) : y.FrontEndLawful := by
  have hfree := ((frontEndLawful_iff x).1 h).1
  exact (frontEndLawful_iff y).2 ⟨fun hnone => hwaiting (hfree (houtstanding ▸ hnone)), hy⟩

theorem lawful_withoutGlide (h : x.FrontEndLawful) : x.withoutGlide.FrontEndLawful :=
  lawful_of_shape h (FrontShape.of_lawful h).withoutGlide rfl fun hw => by
    show x.waiting.filter (· != .step) = []
    rw [hw]
    rfl

theorem lawful_endGlide (h : e.inp.FrontEndLawful) : (e.endGlide v).inp.FrontEndLawful := by
  cases hg : e.inp.glide with
  | none => rwa [endGlide_of_none hg]
  | some g =>
    rw [endGlide_of_glide hg]
    exact lawful_withoutGlide h

/-- A glide that shows the same step, and is as lawful, may stand in for the old one. -/
theorem lawful_withGlide (h : x.FrontEndLawful) {g g' : Glide} (hg : x.glide = some g) (hstep : g'.step = g.step)
    (htimer : g'.timer.isSome = true → g'.step = .absent)
    (hwaiting : g'.state = .waiting →
      g'.source = .owner ∧ g'.step = .absent ∧ g'.timer = none ∧ g'.staged = none) :
    Inp.FrontEndLawful { x with glide := some g' } :=
  lawful_of_shape h ((FrontShape.of_lawful h).withGlide hg hstep htimer hwaiting) rfl id

theorem stepIs_of_glide {g : Glide} (hg : x.glide = some g) (st : StepState) :
    x.stepIs st = true ↔ g.step = st := by
  simp [Inp.stepIs, hg]

/-- The next step of a STEPPING glide with no step in flight and no timer joins the path (R83). -/
theorem FrontShape.stepReady (h : FrontShape x) {g : Glide} (hg : x.glide = some g)
    (hfree : g.step = .absent ∧ g.state = .stepping ∧ g.timer = none) (hidle : x.seq = .idle) :
    FrontShape { x with glide := some { g with step := .ready }, waiting := x.waiting ++ [.step] } := by
  obtain ⟨hstep, hstate, htimer⟩ := hfree
  have hout : .step ∉ x.waiting := fun hw => by
    have hready := (stepIs_of_glide hg .ready).1 (h.ready.1 hw)
    rw [hstep] at hready
    cases hready
  refine { h with
    nodup := h.nodup.append (List.nodup_singleton _) (by simpa using hout)
    recheck := h.recheck.trans (by simp [Inp.issuing])
    oneRecheck := by simpa [Inp.issuing] using h.oneRecheck
    switching := h.switching.trans (by simp [Inp.issuing])
    oneSwitching := by simpa [Inp.issuing] using h.oneSwitching
    ready := by simp [Inp.stepIs], inFlightStep := nofun
    readyIdle := fun _ => hidle
    started := by simpa using h.started
    noGlide := fun hf => absurd (h.noGlide hf) (by rw [hg]; nofun), glide := ?_ }
  rintro _ ⟨⟩
  refine ⟨fun ht => ?_, fun hw => ?_⟩
  · rw [htimer] at ht
    cases ht
  · rw [hstate] at hw
    cases hw

theorem lawful_readyStep (h : e.inp.FrontEndLawful)
    (hg : ∀ g ∈ e.inp.glide, g.step = .absent ∧ g.state = .stepping ∧ g.timer = none) :
    (e.readyStep v).inp.FrontEndLawful := by
  cases hglide : e.inp.glide with
  | none =>
    unfold Ev.readyStep
    rwa [hglide]
  | some g =>
    by_cases hidle : e.inp.seq = .idle
    · rw [readyStep_of_idle hglide hidle]
      exact lawful_pump ((FrontShape.of_lawful h).stepReady hglide (hg g hglide) hidle)
    · rwa [readyStep_of_busy hidle]

end Shape

/-! ## The events -/

section Events
variable {x : Inp} {v : Env} {e : Ev}

/-! ### Ownership -/

theorem lawful_handedOver (h : x.FrontEndLawful) (incoming : Option Slot) :
    (x.handedOver incoming).FrontEndLawful := by
  have hgiven : (x.captureOwner.giveTo incoming).FrontEndLawful := by
    refine lawful_congr h ?_
    rw [giveTo_eq, captureOwner_eq]
    rfl
  unfold Inp.handedOver Inp.handOverGlide
  split
  next g hg =>
    split
    · exact lawful_withoutGlide hgiven
    next hs =>
      obtain ⟨htimer, hwaiting⟩ := (FrontShape.of_lawful hgiven).glide g hg
      refine lawful_withGlide hgiven hg rfl htimer fun hw => ?_
      rw [(hwaiting hw).1] at hs
      cases hs
  · exact hgiven

theorem lawful_leave (h : e.inp.FrontEndLawful) (d : Slot) : (e.leave d).inp.FrontEndLawful := by
  rw [leave_eq]
  dsimp only
  split
  · refine lawful_handedOver ?_ _
    exact lawful_congr h rfl
  · exact lawful_congr h rfl

theorem lawful_retire (h : e.inp.FrontEndLawful) (d : Slot) : (e.retire d).inp.FrontEndLawful :=
  lawful_congr (lawful_leave h d) rfl

theorem lawful_claim (h : e.inp.FrontEndLawful) (d : Slot) (force : Bool) :
    (claimAt d force v e).inp.FrontEndLawful := by
  unfold claimAt
  dsimp only
  split
  · exact h
  split
  · exact h
  split
  · exact h
  split
  · exact lawful_handedOver h _
  split
  · exact h
  split
  · have hleft : (e.inp.leaveQueue d).FrontEndLawful := lawful_congr h rfl
    exact lawful_congr (lawful_handedOver hleft (some d)) rfl
  · refine lawful_congr h ?_
    rw [Ev.answer_inp, Ev.mod_inp, joinQueue_eq]
    rfl

theorem lawful_release (h : e.inp.FrontEndLawful) (d : Slot) : (releaseAt d v e).inp.FrontEndLawful := by
  unfold releaseAt
  split
  · rw [handOn_eq]
    refine lawful_handedOver ?_ _
    exact lawful_congr h rfl
  split
  · exact lawful_congr h rfl
  · exact h

/-! ### Glides -/

/-- A new glide is WAITING, a WAITING one takes the target, and a STEPPING one stages it (R79, R80). -/
theorem lawful_takeTarget (h : x.FrontEndLawful) (hfault : x.fault = false) (target rate : Nat) :
    (x.takeTarget target rate).FrontEndLawful := by
  have hshape := FrontShape.of_lawful h
  unfold Inp.takeTarget
  split
  next hg =>
    split
    · exact h
    · refine lawful_of_shape h { hshape with
        ready := ?_, inFlightStep := nofun, noGlide := fun hf => ?_, glide := ?_ } rfl id
      · refine hshape.ready.trans (iff_of_false ?_ nofun)
        simp [Inp.stepIs, hg]
      · rw [hfault] at hf
        cases hf
      · rintro _ ⟨⟩
        exact ⟨nofun, fun _ => ⟨rfl, rfl, rfl, rfl⟩⟩
  next g hg =>
    obtain ⟨htimer, hwaiting⟩ := hshape.glide g hg
    split
    · split
      · exact lawful_withoutGlide h
      · exact lawful_withGlide h hg rfl htimer hwaiting
    next hstepping =>
      refine lawful_withGlide h hg rfl htimer fun hw => ?_
      rw [hstepping] at hw
      cases hw

theorem lawful_setGain (h : e.inp.FrontEndLawful) (d : Slot) (relative : Bool) (w : Byte) (rate : Option Byte) :
    (setGainAt d relative w rate v e).inp.FrontEndLawful := by
  unfold setGainAt
  split
  · exact h
  split
  · exact h
  next hfault => exact lawful_congr (lawful_takeTarget h (by simpa using hfault) _ _) rfl

theorem lawful_stopGlide (h : e.inp.FrontEndLawful) (d : Slot) : (stopGlideAt d v e).inp.FrontEndLawful := by
  unfold stopGlideAt Ev.stopGlide
  split
  · exact h
  split
  · exact h
  next g hg =>
    obtain ⟨htimer, hwaiting⟩ := (FrontShape.of_lawful h).glide g hg
    split
    next hout =>
      refine lawful_withGlide h hg rfl htimer fun hw => ?_
      rw [hout.1] at hw
      cases hw
    · rw [Ev.answer_inp, endGlide_of_glide rfl]
      exact lawful_congr (lawful_withoutGlide h) rfl

theorem lawful_startGlide (h : e.inp.FrontEndLawful) {g : Glide} (hg : e.inp.glide = some g)
    (hw : g.state = .waiting) : (e.startGlide v g).inp.FrontEndLawful := by
  obtain ⟨htimer, hwaiting⟩ := (FrontShape.of_lawful h).glide g hg
  obtain ⟨-, hstep, htimer', -⟩ := hwaiting hw
  unfold Ev.startGlide
  split
  · exact lawful_endGlide h
  · refine lawful_readyStep (lawful_withGlide h hg rfl htimer nofun) ?_
    rintro _ ⟨⟩
    exact ⟨hstep, rfl, htimer'⟩

theorem lawful_bundleEnd (h : e.inp.FrontEndLawful) : (bundleEndAt v e).inp.FrontEndLawful := by
  unfold bundleEndAt
  split
  · exact h
  next g hg =>
    obtain ⟨htimer, -⟩ := (FrontShape.of_lawful h).glide g hg
    split
    next hw => exact lawful_startGlide h hg hw
    next q hs _ =>
      have hretargeted : Inp.FrontEndLawful { e.inp with glide := some { g with
          target := q.target, rate := q.rate, source := .owner, staged := none } } := by
        refine lawful_withGlide h hg rfl htimer fun hw => ?_
        rw [hs] at hw
        cases hw
      unfold Ev.applyRetarget
      dsimp only
      split
      · refine lawful_endGlide ?_
        exact hretargeted
      · exact hretargeted
    · exact h

theorem lawful_stepTimer (h : e.inp.FrontEndLawful) : (stepTimerAt v e).inp.FrontEndLawful := by
  unfold stepTimerAt
  split
  next g hg =>
    obtain ⟨htimer, hwaiting⟩ := (FrontShape.of_lawful h).glide g hg
    split
    next hdue =>
      have hrunning : g.timer = some 0 := by simpa [isDue] using hdue
      have hstep := htimer (by rw [hrunning]; rfl)
      have hstate : g.state = .stepping := by
        cases hs : g.state with
        | stepping => rfl
        | waiting =>
          rw [(hwaiting hs).2.2.1] at hrunning
          cases hrunning
      refine lawful_readyStep (lawful_withGlide h hg rfl nofun fun hw => ?_) ?_
      · rw [hstate] at hw
        cases hw
      · rintro _ ⟨⟩
        exact ⟨hstep, hstate, rfl⟩
    · exact h
  · exact h

theorem lawful_resumeGlide (h : e.inp.FrontEndLawful) : (e.resumeGlide v).inp.FrontEndLawful := by
  unfold Ev.resumeGlide
  split
  · exact h
  next g hg =>
    split
    next hfree =>
      obtain ⟨hstate, hstep⟩ := hfree
      refine lawful_readyStep (lawful_withGlide h hg rfl nofun fun hw => ?_) ?_
      · rw [hstate] at hw
        cases hw
      · rintro _ ⟨⟩
        exact ⟨hstep, hstate, rfl⟩
    · exact h

/-- A guard glide takes over the step in flight of the glide that it replaces (R92). -/
theorem lawful_guardGlide (h : e.inp.FrontEndLawful) (hfault : e.inp.fault = false) (target : Nat) :
    (e.guardGlide v target).inp.FrontEndLawful := by
  have hshape := FrontShape.of_lawful h
  unfold Ev.guardGlide
  extract_lets step e'
  have hstepIs (st : StepState) (hst : st ≠ .absent) : e'.inp.stepIs st = e.inp.stepIs st := by
    unfold e' step
    cases hg : e.inp.glide with
    | none => simpa [Inp.stepIs, hg] using hst.symm
    | some g => simp [Inp.stepIs, hg]
  have hguard : e'.inp.FrontEndLawful := by
    refine lawful_of_shape h { hshape with
      ready := ?_, inFlightStep := ?_, noGlide := fun hf => ?_, glide := ?_ } rfl id
    · rw [hstepIs .ready nofun]
      exact hshape.ready
    · rw [hstepIs .outstanding nofun]
      exact hshape.inFlightStep
    · have hf' : e.inp.fault = true := hf
      rw [hfault] at hf'
      cases hf'
    · rintro _ ⟨⟩
      exact ⟨nofun, nofun⟩
  split
  next habsent =>
    refine lawful_readyStep hguard ?_
    rintro _ ⟨⟩
    exact ⟨habsent, rfl, rfl⟩
  · exact hguard

theorem fault_of_backedOff (h : x.outcome = .backedOff) : x.fault = false := by
  unfold Inp.outcome at h
  split at h
  · split at h
    · cases h
    next hf => simpa using hf
  · cases h

theorem lawful_backOff (h : e.inp.FrontEndLawful) (hfault : e.inp.fault = false) :
    (e.backOff v).inp.FrontEndLawful := by
  unfold Ev.backOff
  refine lawful_guardGlide ?_ ?_ _
  · exact lawful_congr h rfl
  · exact hfault

theorem lawful_threshold (h : e.inp.FrontEndLawful) : (e.threshold v).inp.FrontEndLawful := by
  unfold Ev.threshold
  extract_lets o e₁
  have hcounted : e₁.inp.FrontEndLawful := lawful_congr h rfl
  change (if o = .backedOff then e₁.backOff v else e₁).inp.FrontEndLawful
  split
  next hbacked => exact lawful_backOff hcounted (fault_of_backedOff hbacked)
  · exact hcounted

theorem lawful_clip (h : e.inp.FrontEndLawful) : (clipAt v e).inp.FrontEndLawful := by
  unfold clipAt
  extract_lets e₁
  have hcounted : e₁.inp.FrontEndLawful := lawful_congr h rfl
  split
  · split
    · exact lawful_threshold hcounted
    · exact hcounted
  · exact h

/-! ### The sequencer -/

/-- No switching write waits or is outstanding outside SWITCHING. -/
theorem FrontShape.not_switching (h : FrontShape x) (hs : x.seq ≠ .switching) :
    .switching ∉ x.waiting ∧ x.issuing (· == .switching) ≠ true :=
  not_or.1 (mt h.switching.2 hs)

/-- No step waits outside IDLE. -/
theorem FrontShape.not_ready (h : FrontShape x) (hs : x.seq ≠ .idle) : .step ∉ x.waiting := mt h.readyIdle hs

/-- The sequencer goes on to a state other than IDLE, SWITCHING and HALTED, with its settle timer as it is there. -/
theorem FrontShape.sequenced (h : FrontShape x) (hbusy : x.seq ≠ .idle) (hswitching : x.seq ≠ .switching)
    {st : SeqState} (hst : st ≠ .idle ∧ st ≠ .switching ∧ st ≠ .halted) {settle : Option Nat}
    (hsettle : settle.isSome = true ↔ st = .settling) {c : Option Change} (hc : c.isSome = true) (gate : Nat) :
    FrontShape { x with seq := st, settleLeft := settle, inFlight := c, seqGate := gate } := by
  obtain ⟨hout, hno⟩ := h.not_switching hswitching
  exact { h with
    busy := iff_of_true hc hst.1, request := fun _ => hst.1, settling := hsettle
    halted := fun hh => absurd hh hst.2.2
    switching := iff_of_false hst.2.1 (not_or.2 ⟨hout, hno⟩)
    readyIdle := fun hw => absurd hw (h.not_ready hbusy) }

theorem lawful_startUnmuting (h : x.FrontEndLawful) (hbusy : x.seq ≠ .idle) (hswitching : x.seq ≠ .switching)
    {c : Option Change} (hc : c.isSome = true) : Inp.FrontEndLawful { x.startUnmuting with inFlight := c } :=
  lawful_of_shape h ((FrontShape.of_lawful h).sequenced (st := .unmuting) (settle := none) hbusy hswitching
    ⟨nofun, nofun, nofun⟩ (iff_of_false nofun nofun) hc 0) rfl id

theorem lawful_settleExpiry (h : e.inp.FrontEndLawful) : (settleExpiryAt v e).inp.FrontEndLawful := by
  unfold settleExpiryAt
  split
  next hs =>
    have hbusy : e.inp.seq ≠ .idle := by rw [hs.1]; nofun
    exact lawful_startUnmuting h hbusy (by rw [hs.1]; nofun) ((FrontShape.of_lawful h).busy.2 hbusy)
  · exact h

theorem lawful_muteRampEnd (h : e.inp.FrontEndLawful) : (muteRampEndAt v e).inp.FrontEndLawful := by
  have hshape := FrontShape.of_lawful h
  unfold muteRampEndAt
  split
  next c hc =>
    split
    next hs =>
      have hbusy : e.inp.seq ≠ .idle := by rw [hs.1]; nofun
      have hswitching : e.inp.seq ≠ .switching := by rw [hs.1]; nofun
      obtain ⟨hout, hno⟩ := hshape.not_switching hswitching
      split
      · exact lawful_startUnmuting h hbusy hswitching rfl
      · refine lawful_pump { hshape with
          busy := hshape.busy.trans (iff_of_true hbusy nofun), request := fun _ => nofun
          settling := hshape.settling.trans (iff_of_false (by rw [hs.1]; nofun) nofun)
          halted := nofun
          nodup := hshape.nodup.append (List.nodup_singleton _) (by simpa using hout)
          recheck := hshape.recheck.trans (by simp [Inp.issuing])
          oneRecheck := by simpa [Inp.issuing] using hshape.oneRecheck
          switching := by simp
          oneSwitching := fun hboth => hno hboth.2
          ready := Iff.trans (by simp) hshape.ready
          readyIdle := fun hw => absurd hw (by simpa using hshape.not_ready hbusy)
          started := by simpa using hshape.started }
    · exact h
  · exact h

/-- A sequence starts at an IDLE sequencer, and a ready step is withdrawn (R14, R87). -/
theorem lawful_startSequence (h : x.FrontEndLawful) (hidle : x.seq = .idle) (value : FrontValue) (d : Slot) :
    (x.startSequence value d).FrontEndLawful := by
  have hshape := FrontShape.of_lawful h
  obtain ⟨hout, hno⟩ := hshape.not_switching (by rw [hidle]; nofun)
  have hrecheck : .recheck ∈ x.waiting.filter (· != .step) ↔ .recheck ∈ x.waiting := by simp
  have hswitching : .switching ∈ x.waiting.filter (· != .step) ↔ .switching ∈ x.waiting := by simp
  have hready : (x.startSequence value d).stepIs .ready = false := by
    unfold Inp.startSequence Inp.stepIs
    cases x.glide with
    | none => rfl
    | some g => by_cases hs : g.step = .ready <;> simp [hs]
  refine lawful_of_shape h { hshape with
    busy := iff_of_true rfl nofun, request := fun _ => nofun
    settling := hshape.settling.trans (iff_of_false (by rw [hidle]; nofun) nofun)
    halted := nofun, nodup := hshape.nodup.filter _
    recheck := hshape.recheck.trans (or_congr_left hrecheck.symm)
    oneRecheck := fun hboth => hshape.oneRecheck ⟨hrecheck.1 hboth.1, hboth.2⟩
    switching := iff_of_false nofun (not_or.2 ⟨fun hw => hout (hswitching.1 hw), hno⟩)
    oneSwitching := fun hboth => hno hboth.2
    ready := ?_, inFlightStep := fun hs => hshape.inFlightStep ?_
    readyIdle := fun hw => absurd (List.of_mem_filter hw) (by simp)
    started := fun hw => hshape.started (List.mem_of_mem_filter hw)
    noGlide := fun hf => ?_, glide := ?_ } rfl fun hw => ?_
  · rw [hready]
    exact iff_of_false (fun hw => absurd (List.of_mem_filter hw) (by simp)) nofun
  · unfold Inp.startSequence Inp.stepIs at hs
    unfold Inp.stepIs
    cases hg : x.glide with
    | none => simp [hg] at hs
    | some g => by_cases hr : g.step = .ready <;> simp_all
  · show x.glide.map _ = none
    rw [hshape.noGlide hf]
    rfl
  · intro g' hg'
    obtain ⟨g, hg, rfl⟩ := Option.map_eq_some_iff.1 hg'
    obtain ⟨htimer, hwaiting⟩ := hshape.glide g hg
    split
    next hr =>
      refine ⟨fun _ => rfl, fun hw => ?_⟩
      rw [(hwaiting hw).2.1] at hr
      cases hr
    · exact ⟨htimer, hwaiting⟩
  · show x.waiting.filter (· != .step) = []
    rw [hw]
    rfl

theorem lawful_request (h : e.inp.FrontEndLawful) (d : Slot) (value : FrontValue) :
    (requestAt d value v e).inp.FrontEndLawful := by
  unfold requestAt Ev.request
  split
  · exact h
  split
  · exact h
  split
  next hbusy =>
    split
    · exact h
    · exact lawful_of_shape h { FrontShape.of_lawful h with request := fun _ => hbusy } rfl id
  next hidle =>
    split
    · exact h
    · exact lawful_startSequence h (not_not.1 hidle) value d

theorem lawful_recheckRequest (h : Inp.FrontEndLawful { e.inp with request := none }) (hidle : e.inp.seq = .idle)
    (q : Request) : (e.recheckRequest v q).inp.FrontEndLawful := by
  unfold Ev.recheckRequest
  dsimp only
  split
  · exact h
  split
  · exact lawful_startSequence (x := { e.inp with request := none }) h hidle _ _
  · exact h
  · exact h

/-- The return to IDLE, with the change and the request removed (R16, R18). -/
theorem lawful_returned (h : x.FrontEndLawful) (hs : x.seq = .unmuting) :
    Inp.FrontEndLawful { x with seq := .idle, inFlight := none, request := none } := by
  have hshape := FrontShape.of_lawful h
  obtain ⟨hout, hno⟩ := hshape.not_switching (by rw [hs]; nofun)
  exact lawful_of_shape h { hshape with
    busy := iff_of_false nofun fun hne => hne rfl, request := nofun
    settling := hshape.settling.trans (iff_of_false (by rw [hs]; nofun) nofun)
    halted := nofun, switching := iff_of_false nofun (not_or.2 ⟨hout, hno⟩), readyIdle := fun _ => rfl } rfl id

theorem lawful_unmuteRampEnd (h : e.inp.FrontEndLawful) : (unmuteRampEndAt v e).inp.FrontEndLawful := by
  unfold unmuteRampEndAt
  extract_lets e₁ e₂
  split
  next hs =>
    have hreturned := lawful_returned h hs.1
    have hjudged : e₂.inp.FrontEndLawful := by
      unfold e₂
      split
      next q _ => exact lawful_recheckRequest (e := e₁) hreturned rfl q
      next hnone =>
        refine lawful_congr hreturned ?_
        have hnone' : e.inp.request = none := hnone
        show front { e.inp with seq := .idle, inFlight := none } = _
        simp only [front, hnone']
    split
    · exact lawful_resumeGlide hjudged
    · exact hjudged
  · exact h

theorem lawful_recheckAt (h : e.inp.FrontEndLawful) (d : Slot) : (recheckAt d v e).inp.FrontEndLawful := by
  have hshape := FrontShape.of_lawful h
  unfold recheckAt
  split
  · exact h
  split
  · exact h
  next hno =>
    obtain ⟨hout, hissuing⟩ := not_or.1 (mt hshape.recheck.2 hno)
    refine lawful_pump { hshape with
      nodup := hshape.nodup.append (List.nodup_singleton _) (by simpa using hout)
      recheck := by simp
      oneRecheck := fun hboth => hissuing hboth.2
      switching := hshape.switching.trans (by simp [Inp.issuing])
      oneSwitching := by simpa [Inp.issuing] using hshape.oneSwitching
      ready := Iff.trans (by simp) hshape.ready
      readyIdle := by simpa using hshape.readyIdle
      started := by simpa using hshape.started }

/-! ### Failures and acknowledgements -/

/-- A list without the step, and without a switching write that has not been carried out, holds only a recheck. -/
theorem mem_unhalted (h : FrontShape x) {w : List Group} (hw : ∀ a, a ∈ w ↔ a ∈ x.waiting ∧ a ≠ .step)
    (a : Group) : a ∈ (if x.seq = .muting ∨ x.seq = .switching then w.filter (· != .switching) else w) ↔
      a = .recheck ∧ .recheck ∈ x.waiting := by
  have hstarted := h.started
  by_cases hs : x.seq = .muting ∨ x.seq = .switching
  · rw [if_pos hs, List.mem_filter, hw]
    cases a <;> simp [hstarted]
  · obtain ⟨hout, -⟩ := h.not_switching fun hsw => hs (.inr hsw)
    rw [if_neg hs, hw]
    cases a <;> simp [hstarted, hout]

/-- After a failure nothing waits but a recheck (R7, R91). -/
theorem mem_failed_waiting (h : FrontShape x) (o : Outstanding) (a : Group) :
    a ∈ (failed o x).waiting ↔ a = .recheck ∧ .recheck ∈ x.waiting := by
  unfold failed
  cases hg : x.glide with
  | some g => exact mem_unhalted h (fun b => by simp) a
  | none =>
    have hout : .step ∉ x.waiting := fun hw => by simpa [Inp.stepIs, hg] using h.ready.1 hw
    refine mem_unhalted h (fun b => ⟨fun hb => ⟨hb, ?_⟩, And.left⟩) a
    rintro rfl
    exact hout hb

/-- Only a sequencer that had not yet switched is HALTED by a failure (R10, R91). -/
theorem failed_seq (o : Outstanding) (x : Inp) : (failed o x).seq ≠ .switching ∧
    ((failed o x).seq = .idle ↔ x.seq = .idle) ∧ ((failed o x).seq = .settling ↔ x.seq = .settling) := by
  unfold failed
  dsimp only
  cases x.seq <;> simp

theorem nodup_failed_waiting (h : x.waiting.Nodup) (o : Outstanding) : (failed o x).waiting.Nodup := by
  have hunhalted {w : List Group} (hw : w.Nodup) : List.Nodup
      (if x.seq = .muting ∨ x.seq = .switching then w.filter (· != .switching) else w) := by
    split
    · exact hw.filter _
    · exact hw
  unfold failed
  cases x.glide with
  | some g => exact hunhalted (h.filter _)
  | none => exact hunhalted h

/-- A failed write leaves no part of its group, no glide and no switching sequence (R7, R10, R21, R91). -/
theorem frontShape_failed (h : FrontShape x) {o : Outstanding} (ho : x.outstanding = some o) :
    FrontShape (failed o x) := by
  obtain ⟨hswitching, hidle, hsettling⟩ := failed_seq o x
  have hmem := mem_failed_waiting h o
  have hout {a : Group} (ha : a ≠ .recheck) : a ∉ (failed o x).waiting := fun hw => ha ((hmem a).1 hw).1
  have hissuing : x.issuing Issuer.isRecheck = o.issuer.isRecheck := by simp [Inp.issuing, ho]
  constructor
  case busy => exact h.busy.trans (not_congr hidle.symm)
  case request => exact fun hr => mt hidle.1 (h.request hr)
  case settling => exact h.settling.trans hsettling.symm
  case halted => exact fun _ => rfl
  case nodup => exact nodup_failed_waiting h.nodup o
  case recheck =>
    have hone := h.oneRecheck
    have hiff := h.recheck
    rw [hissuing] at hone hiff
    rw [hmem]
    change (if o.issuer.isRecheck then false else x.recheck) = true ↔ _ ∨ false = true
    by_cases hr : o.issuer.isRecheck = true <;> simp_all
  case oneRecheck => exact fun hboth => nomatch hboth.2
  case switching => exact iff_of_false hswitching (not_or.2 ⟨hout nofun, nofun⟩)
  case oneSwitching => exact fun hboth => nomatch hboth.2
  case ready => exact iff_of_false (hout nofun) nofun
  case inFlightStep => exact nofun
  case readyIdle => exact fun hw => absurd hw (hout nofun)
  case started => exact hout nofun
  case noGlide => exact fun _ => rfl
  case glide => exact nofun

theorem lawful_fail (h : x.FrontEndLawful) : (failAt v ⟨x, [], .done⟩).inp.FrontEndLawful := by
  cases ho : x.outstanding with
  | none => rwa [failAt_of_none ho]
  | some o =>
    by_cases hl : o.left = 0
    · rw [failAt_due ho hl]
      exact lawful_pump (frontShape_failed (FrontShape.of_lawful h) ho)
    · rwa [failAt_early ho hl]

theorem pump_of_busy (h : e.inp.outstanding.isSome = true) : e.pump v = e := if_pos h

/-- The glide engine at the acknowledgement of its step, whose write is still on the path (R84). -/
theorem stepAcked_eq {g : Glide} (hg : e.inp.glide = some g) (hs : g.step = .outstanding)
    (ho : e.inp.outstanding.isSome = true) : e.stepAcked v =
      if e.inp.gain = g.target then ⟨e.inp.withoutGlide, e.out ++ glideDoneFor v e.inp g.source, e.code⟩
      else if e.inp.seq ≠ .idle then ⟨{ e.inp with glide := some { g with step := .absent } }, e.out, e.code⟩
      else if g.rate = 0 then ⟨{ e.inp with
        glide := some { g with step := .ready }, waiting := e.inp.waiting ++ [.step] }, e.out, e.code⟩
      else ⟨{ e.inp with glide := some { g with step := .absent, timer := some g.rate } }, e.out, e.code⟩ := by
  unfold Ev.stepAcked
  simp only [hg, if_pos hs]
  refine ite_congr rfl (fun _ => endGlide_of_glide (g := { g with step := .absent }) rfl) fun _ => ?_
  by_cases hidle : e.inp.seq = .idle
  · refine ite_congr rfl (fun hne => absurd hidle hne) fun _ => ite_congr rfl (fun _ => ?_) fun _ => rfl
    exact (readyStep_of_idle (e := e.mod fun x => { x with glide := some { g with step := .absent } }) rfl
      hidle).trans (pump_of_busy ho)
  · exact (if_pos hidle).trans (if_pos hidle).symm

/-- A glide without a step in flight stands where the step that has ended was (R84). -/
theorem lawful_stepEnded (h : x.FrontEndLawful) {g g' : Glide} (hg : x.glide = some g) (hs : g.step = .outstanding)
    (hstep : g'.step = .absent) (hstate : g'.state = g.state) :
    Inp.FrontEndLawful { x with glide := some g' } := by
  have hshape := FrontShape.of_lawful h
  obtain ⟨-, hwaiting⟩ := hshape.glide g hg
  refine lawful_of_shape h { hshape with
    ready := hshape.ready.trans (iff_of_false ?_ ?_), inFlightStep := ?_, noGlide := ?_, glide := ?_ } rfl id
  · simp [Inp.stepIs, hg, hs]
  · simp [Inp.stepIs, hstep]
  · simp [Inp.stepIs, hstep]
  · intro hf
    rw [hshape.noGlide hf] at hg
    cases hg
  · rintro _ ⟨⟩
    refine ⟨fun _ => hstep, fun hw => ?_⟩
    rw [hstate] at hw
    rw [(hwaiting hw).2.1] at hs
    cases hs

/-- Where a write is outstanding, the shape is all that there is to show. -/
theorem lawful_of_busy (h : FrontShape x) (ho : x.outstanding.isSome = true) : x.FrontEndLawful := by
  refine (frontEndLawful_iff x).2 ⟨fun hnone => ?_, h⟩
  rw [hnone] at ho
  cases ho

/-- At the acknowledgement of a step its write is still on the path, and the glide has no step outstanding. -/
theorem lawful_stepAcked (h : e.inp.FrontEndLawful) (ho : e.inp.outstanding.isSome = true) :
    (e.stepAcked v).inp.FrontEndLawful ∧ (e.stepAcked v).inp.outstanding = e.inp.outstanding ∧
      (e.stepAcked v).inp.stepIs .outstanding ≠ true := by
  cases hg : e.inp.glide with
  | none =>
    have hsame : e.stepAcked v = e := by
      unfold Ev.stepAcked
      rw [hg]
    rw [hsame]
    exact ⟨h, rfl, by simp [Inp.stepIs, hg]⟩
  | some g =>
    by_cases hs : g.step = .outstanding
    · obtain ⟨htimer, hwaiting⟩ := (FrontShape.of_lawful h).glide g hg
      have hended := lawful_stepEnded h (g' := { g with step := .absent }) hg hs rfl rfl
      have hstepping : g.state = .stepping := by
        cases hw : g.state with
        | stepping => rfl
        | waiting =>
          rw [(hwaiting hw).2.1] at hs
          cases hs
      have hstopped : g.timer = none := by
        cases ht : g.timer with
        | none => rfl
        | some n =>
          rw [htimer (by rw [ht]; rfl)] at hs
          cases hs
      rw [stepAcked_eq hg hs ho]
      split
      · exact ⟨lawful_withoutGlide h, rfl, nofun⟩
      split
      · exact ⟨hended, rfl, nofun⟩
      next hidle =>
      split
      · exact ⟨lawful_of_busy ((FrontShape.of_lawful hended).stepReady (g := { g with step := .absent }) rfl
          ⟨rfl, hstepping, hstopped⟩ (not_not.1 hidle)) ho, rfl, nofun⟩
      · exact ⟨lawful_stepEnded h hg hs rfl rfl, rfl, nofun⟩
    · have hsame : e.stepAcked v = e := by
        unfold Ev.stepAcked
        simp only [hg]
        exact if_neg hs
      rw [hsame]
      exact ⟨h, rfl, by simpa [Inp.stepIs, hg] using hs⟩

theorem lawful_clampGlide (h : e.inp.FrontEndLawful) : (e.clampGlide v).inp.FrontEndLawful := by
  unfold Ev.clampGlide
  split
  · exact h
  next g hg =>
    obtain ⟨htimer, hwaiting⟩ := (FrontShape.of_lawful h).glide g hg
    have hclamped : Inp.FrontEndLawful { e.inp with glide := some { g with
        target := min (maxGain e.inp.mode) g.target
        staged := g.staged.map fun q => { q with target := min (maxGain e.inp.mode) q.target } } } := by
      refine lawful_withGlide h hg rfl htimer fun hw => ?_
      obtain ⟨hsource, hstep, htimer', hstaged⟩ := hwaiting hw
      exact ⟨hsource, hstep, htimer', by rw [hstaged]; rfl⟩
    dsimp only
    split
    · refine lawful_endGlide ?_
      exact hclamped
    · exact hclamped

/-- The write of a group that has one left follows the one before (R5, R8, R20). -/
theorem lawful_reissued (h : x.FrontEndLawful) {o o' : Outstanding} (ho : x.outstanding = some o)
    (hrecheck : o'.issuer.isRecheck = o.issuer.isRecheck)
    (hswitching : (o'.issuer == .switching) = (o.issuer == .switching))
    (hstep : o'.issuer.isStep = o.issuer.isStep) {c : Option Change} (hc : c.isSome = x.inFlight.isSome) :
    Inp.FrontEndLawful { x with outstanding := some o', inFlight := c } := by
  have hshape := FrontShape.of_lawful h
  have hissuing {p : Issuer → Bool} (hp : p o'.issuer = p o.issuer) :
      Inp.issuing { x with outstanding := some o', inFlight := c } p = x.issuing p := by
    simpa [Inp.issuing, ho] using hp
  refine lawful_of_busy { hshape with
    busy := ?_, recheck := ?_, oneRecheck := ?_, switching := ?_, oneSwitching := ?_, inFlightStep := ?_ } rfl
  · rw [hc]
    exact hshape.busy
  · rw [hissuing hrecheck]
    exact hshape.recheck
  · rw [hissuing hrecheck]
    exact hshape.oneRecheck
  · rw [hissuing (p := (· == .switching)) hswitching]
    exact hshape.switching
  · rw [hissuing (p := (· == .switching)) hswitching]
    exact hshape.oneSwitching
  · rw [hissuing hstep]
    exact hshape.inFlightStep

theorem haltedChange_eq {c : Change} (h : x.haltedChange = some c) : x.seq = .halted ∧ x.inFlight = some c := by
  unfold Inp.haltedChange at h
  split at h
  · exact ⟨‹_›, h⟩
  · cases h

/-- The second write of a recheck carries the recorded phantom state or the change of a HALTED sequencer, which
stays what it was (R20, R22). -/
theorem issueRecheckPhantom_inp (v : Env) (e : Ev) : ∃ on c, (e.issueRecheckPhantom v).inp = { e.inp with
      outstanding := some ⟨.phantom on, .recheck 1, ackTimeout⟩, inFlight := c } ∧
    c.map Change.value = e.inp.inFlight.map Change.value ∧
    (on = e.inp.phantom ∨ (e.inp.seq = .halted ∧ e.inp.inFlight.map Change.value = some (.phantom on))) := by
  unfold Ev.issueRecheckPhantom
  split
  next on d hc =>
    obtain ⟨hhalted, hin⟩ := haltedChange_eq hc
    split
    · exact ⟨_, _, rfl, by rw [hin]; rfl, .inl rfl⟩
    · exact ⟨_, _, rfl, rfl, .inr ⟨hhalted, by rw [hin]; rfl⟩⟩
  · exact ⟨_, _, rfl, rfl, .inl rfl⟩

/-- A path whose outstanding write belonged to no recheck and no sequence, and whose glide has no step outstanding,
is free (R5). -/
theorem FrontShape.completed (h : FrontShape x) (hrecheck : x.issuing Issuer.isRecheck ≠ true)
    (hswitching : x.issuing (· == .switching) ≠ true) (hstep : x.stepIs .outstanding ≠ true) :
    FrontShape { x with outstanding := none } :=
  { h with
    recheck := h.recheck.trans (or_congr_right (iff_of_false hrecheck nofun)), oneRecheck := nofun ∘ And.right
    switching := h.switching.trans (or_congr_right (iff_of_false hswitching nofun))
    oneSwitching := nofun ∘ And.right, inFlightStep := fun hs => absurd hs hstep }

/-- A switching write takes the sequencer to SETTLING (R15, R16). -/
theorem toIssuer_switching (hs : e.inp.seq = .switching) {c : Change} (hc : e.inp.inFlight = some c) :
    e.toIssuer v .switching = ⟨{ e.inp with
      seq := .settling, settleLeft := some (settleTime v.sys c.value) }, e.out, e.code⟩ := by
  simp only [Ev.toIssuer, Ev.mod, if_pos hs, Inp.startSettling, hc]

/-- The third recheck write frees a HALTED sequencer (R21). -/
theorem recheckDone_halted (y : Sys) (hs : x.seq = .halted) {c : Change} (hc : x.inFlight = some c) :
    x.recheckDone y = if c.abandoned then Inp.unmutingFrom { x with recheck := false, fault := false }
      else { x with
        recheck := false, fault := false, seq := .settling, settleLeft := some (settleTime y c.value) } := by
  simp only [Inp.recheckDone, if_pos hs, hc, Option.any_some, Inp.startSettling]
  rfl

theorem recheckDone_other (y : Sys) (hs : x.seq ≠ .halted) :
    x.recheckDone y = { x with recheck := false, fault := false } := if_neg hs

/-- The third recheck write acknowledged clears recheck and fault beside a sequencer that is not HALTED (R21). -/
theorem FrontShape.rechecked (h : FrontShape x) {o : Outstanding} (ho : x.outstanding = some o)
    (hi : o.issuer.isRecheck = true) (hstep : x.stepIs .outstanding ≠ true) (hs : x.seq ≠ .halted) :
    FrontShape { x with recheck := false, fault := false, outstanding := none } := by
  have hissuing (p : Issuer → Bool) : x.issuing p = p o.issuer := by simp [Inp.issuing, ho]
  have hout : .recheck ∉ x.waiting := fun hw => h.oneRecheck ⟨hw, by rw [hissuing, hi]⟩
  have hno : x.issuing (· == .switching) ≠ true := by
    rw [hissuing]
    intro hsw
    rw [eq_of_beq hsw] at hi
    cases hi
  exact { h with
    halted := fun hh => absurd hh hs, recheck := iff_of_false nofun (not_or.2 ⟨hout, nofun⟩)
    oneRecheck := nofun ∘ And.right
    switching := h.switching.trans (or_congr_right (iff_of_false hno nofun))
    oneSwitching := nofun ∘ And.right, inFlightStep := fun hs => absurd hs hstep, noGlide := nofun }

theorem frontShape_recheckDone (h : FrontShape x) {o : Outstanding} (ho : x.outstanding = some o)
    (hi : o.issuer.isRecheck = true) (hstep : x.stepIs .outstanding ≠ true) (y : Sys) :
    FrontShape { x.recheckDone y with outstanding := none } := by
  by_cases hs : x.seq = .halted
  · have hbusy : x.seq ≠ .idle := by rw [hs]; nofun
    have hswitching : x.seq ≠ .switching := by rw [hs]; nofun
    have hsome := h.busy.2 hbusy
    obtain ⟨c, hc⟩ := Option.isSome_iff_exists.1 hsome
    rw [recheckDone_halted y hs hc]
    split
    · exact (h.sequenced (st := .unmuting) (settle := none) hbusy hswitching ⟨nofun, nofun, nofun⟩
        (iff_of_false nofun nofun) hsome 0).rechecked ho hi hstep nofun
    · exact (h.sequenced (st := .settling) hbusy hswitching ⟨nofun, nofun, nofun⟩
        (iff_of_true rfl rfl) hsome x.seqGate).rechecked ho hi hstep nofun
  · rw [recheckDone_other y hs]
    exact h.rechecked ho hi hstep hs

/-- An acknowledgement handed to its issuer, after which the path moves on (R6, R15, R20, R21, R84). -/
theorem lawful_handled (h : e.inp.FrontEndLawful) {o : Outstanding} (ho : e.inp.outstanding = some o) :
    ((e.toIssuer v o.issuer).moveOn v o.issuer).inp.FrontEndLawful := by
  have hshape := FrontShape.of_lawful h
  have hissuing (p : Issuer → Bool) : e.inp.issuing p = p o.issuer := by simp [Inp.issuing, ho]
  have hnoStep (hi : o.issuer.isStep = false) : e.inp.stepIs .outstanding ≠ true := fun hs => by
    have hstep := hshape.inFlightStep hs
    rw [hissuing, hi] at hstep
    cases hstep
  have hacked {f : Ev} (hf : f.inp.FrontEndLawful) (hfo : f.inp.outstanding = some o) {source : GlideSource}
      (hi : o.issuer = .step source) : ((f.stepAcked v).moveOn v (.step source)).inp.FrontEndLawful := by
    obtain ⟨hl, houtstanding, hstep⟩ := lawful_stepAcked (v := v) hf (by rw [hfo]; rfl)
    rw [hfo] at houtstanding
    refine lawful_pump ((FrontShape.of_lawful hl).completed ?_ ?_ hstep) <;>
      simp [Inp.issuing, houtstanding, hi, Issuer.isRecheck]
  cases hi : o.issuer with
  | step source =>
    cases source with
    | guard => exact hacked (f := e.mod (Inp.raiseOwnerTrim v.sys.align)) (lawful_congr h rfl) ho hi
    | owner => exact hacked h ho hi
  | switching =>
    have hs : e.inp.seq = .switching := hshape.switching.2 (.inr (by rw [hissuing, hi]; rfl))
    have hbusy : e.inp.seq ≠ .idle := by rw [hs]; nofun
    obtain ⟨c, hc⟩ := Option.isSome_iff_exists.1 (hshape.busy.2 hbusy)
    have hout : .switching ∉ e.inp.waiting := fun hw => hshape.oneSwitching ⟨hw, by rw [hissuing, hi]; rfl⟩
    have hno : e.inp.issuing Issuer.isRecheck ≠ true := by
      rw [hissuing, hi]
      nofun
    rw [toIssuer_switching hs hc]
    exact lawful_pump { hshape with
      busy := hshape.busy.trans (iff_of_true hbusy nofun), request := fun _ => nofun
      settling := iff_of_true rfl rfl, halted := nofun
      recheck := hshape.recheck.trans (or_congr_right (iff_of_false hno nofun)), oneRecheck := nofun ∘ And.right
      switching := iff_of_false nofun (not_or.2 ⟨hout, nofun⟩), oneSwitching := nofun ∘ And.right
      inFlightStep := fun hstep => absurd hstep (hnoStep (by rw [hi]; rfl))
      readyIdle := fun hw => absurd hw (hshape.not_ready hbusy) }
  | recheck n =>
    match n with
    | 0 =>
      obtain ⟨on, c, hinp, hc, -⟩ := issueRecheckPhantom_inp v (e.mod fun x => { x with outstanding := none })
      have hsome : c.isSome = e.inp.inFlight.isSome := by
        rw [← Option.isSome_map (f := Change.value), hc, Option.isSome_map]
        rfl
      have hissued := lawful_reissued h ho (o' := ⟨.phantom on, .recheck 1, ackTimeout⟩) (by rw [hi]; rfl)
        (by rw [hi]; rfl) (by rw [hi]; rfl) hsome
      change (Ev.issueRecheckPhantom v (e.mod fun x => { x with outstanding := none })).inp.FrontEndLawful
      rw [hinp]
      exact hissued
    | 1 => exact lawful_reissued h ho (by rw [hi]; rfl) (by rw [hi]; rfl) (by rw [hi]; rfl) rfl
    | 2 => exact lawful_pump (frontShape_recheckDone hshape ho (by rw [hi]; rfl) (hnoStep (by rw [hi]; rfl)) v.sys)
  | startUp n =>
    match n with
    | 0 => exact lawful_reissued h ho (by rw [hi]; rfl) (by rw [hi]; rfl) (by rw [hi]; rfl) rfl
    | 1 =>
      refine lawful_pump (hshape.completed ?_ ?_ (hnoStep (by rw [hi]; rfl)))
      · rw [hissuing, hi]
        nofun
      · rw [hissuing, hi]
        nofun

theorem front_recordTracked (align : Nat) (w : Write) (x : Inp) : front (x.recordTracked align w) = front x := by
  unfold Inp.recordTracked
  dsimp only
  split <;> cases w <;> rfl

theorem clampGlide_outstanding (v : Env) (e : Ev) : (e.clampGlide v).inp.outstanding = e.inp.outstanding := by
  unfold Ev.clampGlide
  split
  · rfl
  · dsimp only
    split
    · rw [endGlide_of_glide rfl]
      rfl
    · rfl

theorem lawful_ack (h : e.inp.FrontEndLawful) : (ackAt v e).inp.FrontEndLawful := by
  unfold ackAt
  split
  · exact h
  next o ho =>
    have hfront := front_recordTracked v.sys.align o.write e.inp
    have hrecorded := lawful_congr h hfront
    have houtstanding : (e.inp.recordTracked v.sys.align o.write).outstanding = some o :=
      (congrArg (fun f => f.2.2.2.2.2.2.2.1) hfront).trans ho
    extract_lets old e₁ e₂
    refine lawful_handled ?_ ?_
    · unfold e₂
      split
      · exact hrecorded
      · exact lawful_clampGlide hrecorded
    · unfold e₂
      split
      · exact houtstanding
      · rw [clampGlide_outstanding]
        exact houtstanding

end Events

/-! ## Every step -/

theorem lawful_event (i : InputEvent) (v : Env) {x : Inp} (h : x.FrontEndLawful) :
    (i.run v ⟨x, [], .done⟩).inp.FrontEndLawful := by
  cases i with
  | openTap d level =>
    dsimp only [InputEvent.run]
    unfold openTapAt
    split
    · exact h
    · exact lawful_congr h rfl
  | closeTap d =>
    dsimp only [InputEvent.run]
    unfold closeTapAt
    split
    · exact lawful_retire (e := ⟨x, [], .done⟩) h d
    · exact h
  | setLevel d relative w =>
    dsimp only [InputEvent.run]
    unfold setLevelAt
    split
    · exact h
    · exact lawful_congr h rfl
  | setTapMute d on =>
    dsimp only [InputEvent.run]
    unfold setTapMuteAt
    split
    · exact h
    · exact lawful_congr h rfl
  | claim d force => exact lawful_claim (e := ⟨x, [], .done⟩) h d force
  | release d => exact lawful_release (v := v) (e := ⟨x, [], .done⟩) h d
  | setGain d relative w rate => exact lawful_setGain (v := v) (e := ⟨x, [], .done⟩) h d relative w rate
  | stopGlide d => exact lawful_stopGlide (e := ⟨x, [], .done⟩) h d
  | request d value => exact lawful_request (e := ⟨x, [], .done⟩) h d value
  | recheck d => exact lawful_recheckAt (e := ⟨x, [], .done⟩) h d
  | configureInput c =>
    dsimp only [InputEvent.run]
    unfold configureInputAt
    split
    · exact h
    · exact lawful_congr h rfl
  | bundleEnd => exact lawful_bundleEnd (e := ⟨x, [], .done⟩) h
  | ack => exact lawful_ack h
  | fail => exact lawful_fail h
  | muteRampEnd => exact lawful_muteRampEnd (e := ⟨x, [], .done⟩) h
  | settleExpiry => exact lawful_settleExpiry (v := v) (e := ⟨x, [], .done⟩) h
  | unmuteRampEnd => exact lawful_unmuteRampEnd (e := ⟨x, [], .done⟩) h
  | stepTimer => exact lawful_stepTimer (e := ⟨x, [], .done⟩) h
  | clip => exact lawful_clip (e := ⟨x, [], .done⟩) h
  | windowExpiry =>
    dsimp only [InputEvent.run]
    unfold windowExpiryAt
    split
    · exact lawful_congr h rfl
    · exact h
  | leave d => exact lawful_leave (e := ⟨x, [], .done⟩) h d
  | retire d => exact lawful_retire (e := ⟨x, [], .done⟩) h d

/-- A control reset drops the pending request and the glide, and lets the sequence go on (R9, R93). -/
theorem lawful_controlReset {x : Inp} (h : x.FrontEndLawful) : x.controlReset.FrontEndLawful := by
  have hdropped := lawful_withoutGlide h
  have hunrequested : Inp.FrontEndLawful { x.withoutGlide with request := none } :=
    lawful_of_shape hdropped { FrontShape.of_lawful hdropped with request := nofun } rfl id
  refine lawful_congr hunrequested ?_
  rw [inp_controlReset]
  rfl

/-- After power-on reset the first start-up write is outstanding (R8). -/
theorem lawful_reset (rate96 : Bool) (n : Nat) : Inp.FrontEndLawful { Inp.reset rate96 with unanswered := n } := by
  refine lawful_of_busy ?_ rfl
  constructor
  case busy => exact iff_of_false nofun fun hne => hne rfl
  case settling => exact iff_of_false nofun nofun
  case nodup => exact List.nodup_nil
  case recheck => exact iff_of_false nofun (not_or.2 ⟨nofun, nofun⟩)
  case switching => exact iff_of_false nofun (not_or.2 ⟨nofun, nofun⟩)
  case ready => exact iff_of_false nofun nofun
  all_goals exact nofun

theorem lawful_tick {x : Inp} (h : x.FrontEndLawful) : x.tick.FrontEndLawful := by
  have hissuing (p : Issuer → Bool) : x.tick.issuing p = x.issuing p := Option.any_map
  have hstepIs (st : StepState) : x.tick.stepIs st = x.stepIs st := Option.any_map
  have hshape := FrontShape.of_lawful h
  have hfree := ((frontEndLawful_iff x).1 h).1
  refine (frontEndLawful_iff _).2 ⟨fun hnone => hfree (Option.map_eq_none_iff.1 hnone), { hshape with
    settling := ?_, recheck := ?_, oneRecheck := ?_, switching := ?_, oneSwitching := ?_, ready := ?_
    inFlightStep := ?_, noGlide := fun hf => ?_, glide := ?_ }⟩
  · have hsettle : x.tick.settleLeft.isSome = x.settleLeft.isSome := Option.isSome_map
    rw [hsettle]
    exact hshape.settling
  · rw [hissuing]
    exact hshape.recheck
  · rw [hissuing]
    exact hshape.oneRecheck
  · rw [hissuing]
    exact hshape.switching
  · rw [hissuing]
    exact hshape.oneSwitching
  · rw [hstepIs]
    exact hshape.ready
  · rw [hstepIs, hissuing]
    exact hshape.inFlightStep
  · exact Option.map_eq_none_iff.2 (hshape.noGlide hf)
  · intro g' hg'
    obtain ⟨g, hg, rfl⟩ := Option.map_eq_some_iff.1 hg'
    obtain ⟨htimer, hwaiting⟩ := hshape.glide g hg
    refine ⟨fun ht => htimer (by rwa [runDown, Option.isSome_map] at ht), fun hw => ?_⟩
    obtain ⟨hsource, hstep, htimer', hstaged⟩ := hwaiting hw
    exact ⟨hsource, hstep, by simp [runDown, htimer'], hstaged⟩

/-- The law of the front end is a law of every input. -/
theorem frontEnd_law : InputLaw Inp.FrontEndLawful where
  event i v _ h := lawful_event i v h
  sample _ _ _ h := lawful_congr h rfl
  released _ _ _ h := lawful_congr h rfl
  late _ _ h := lawful_congr h rfl
  controlReset _ h := lawful_controlReset h
  powerOn := lawful_reset
  tick _ h := lawful_tick h

end Sys2Proof.FrontEndProofs
end

section
/-! PROOFS. Phantom power only in MIC or LINE and without phantom lock (R4): what keeps it as a proposition, and its
passage through every event beside the law of the front end. -/

namespace Sys2Proof.PhantomProofs

open Sys2Proof Sys2Proof.Machine Sys2Proof.TapProofs Sys2Proof.GlideProofs Sys2Proof.StepProofs
  Sys2Proof.PathProofs Sys2Proof.HeldProofs Sys2Proof.LevelProofs Sys2Proof.HandOverProofs Sys2Proof.ResetProofs
  Sys2Proof.FrontEndProofs

/-! ## What keeps the law -/

/-- What the change in flight brings (R14). -/
def changing (x : Inp) : Option FrontValue := x.inFlight.map Change.value

/-- What the write outstanding may bring: no phantom ON but what is ON already or is the change in flight, and no mode
but the recorded one or that of the change in flight. -/
def Brings (x : Inp) (o : Outstanding) : Prop :=
  match o.write with
  | .gain _ => True
  | .phantom on => on = true → x.phantom = true ∨
      ((o.issuer = .switching ∨ (o.issuer = .recheck 1 ∧ x.seq = .halted)) ∧ changing x = some (.phantom true))
  | .mode m g => match o.issuer with
    | .startUp _ => m = .off ∧ g = 0 ∧ x.mode = .off
    | .switching => changing x = some (.mode m)
    | .recheck n => n = 0 ∧ (m = x.mode ∨ (x.seq = .halted ∧ changing x = some (.mode m)))
    | .step _ => False

/-- What keeps R4, but for the outstanding write: the change in flight leaves the law as it is. -/
structure PhantomHeld (x : Inp) : Prop where
  law : x.phantom = true → carriesPhantom x.mode = true ∧ x.lock = false
  on : changing x = some (.phantom true) → carriesPhantom x.mode = true ∧ x.lock = false
  mode : ∀ m, changing x = some (.mode m) → x.phantom = true → carriesPhantom m = true

theorem changing_iff (x : Inp) (value : FrontValue) :
    (x.inFlight.any fun c => c.value == value) = true ↔ changing x = some value := by
  unfold changing
  cases x.inFlight <;> simp

theorem phantomSafe_iff (x : Inp) : x.phantomSafe = true ↔ PhantomHeld x ∧ ∀ o ∈ x.outstanding, Brings x o := by
  have hlaw : (!x.phantom || (carriesPhantom x.mode && !x.lock)) = true ↔
      (x.phantom = true → carriesPhantom x.mode = true ∧ x.lock = false) := by
    cases x.phantom <;> simp
  have hchange : (match x.inFlight with
      | some ⟨.phantom true, _, _⟩ => carriesPhantom x.mode && !x.lock
      | some ⟨.mode m, _, _⟩ => !x.phantom || carriesPhantom m
      | _ => true) = true ↔ (changing x = some (.phantom true) → carriesPhantom x.mode = true ∧ x.lock = false) ∧
      (∀ m, changing x = some (.mode m) → x.phantom = true → carriesPhantom m = true) := by
    unfold changing
    rcases x.inFlight with - | ⟨m | on, d, a⟩
    · simp
    · cases x.phantom <;> simp
    · cases on <;> simp
  have hwrite : (match x.outstanding with
      | some ⟨.phantom true, i, _⟩ =>
        x.phantom ||
          (((i == .switching) || (i == .recheck 1 && x.seq == .halted)) &&
            (x.inFlight.any fun c => c.value == .phantom true))
      | some ⟨.mode m g, .startUp _, _⟩ => m == .off && g == 0 && x.mode == .off
      | some ⟨.mode m _, .switching, _⟩ => x.inFlight.any fun c => c.value == .mode m
      | some ⟨.mode m _, .recheck n, _⟩ => n == 0 &&
        (if x.seq = .halted then
          m == x.mode || (x.inFlight.any fun c => c.value == .mode m)
        else m == x.mode)
      | some ⟨.mode _ _, .step _, _⟩ => false
      | _ => true) = true ↔ ∀ o ∈ x.outstanding, Brings x o := by
    cases hx : x.outstanding with
    | none => simp
    | some o =>
      obtain ⟨w, i, left⟩ := o
      simp only [Option.mem_some_iff, forall_eq']
      cases w with
      | gain g => simp [Brings]
      | phantom on => cases on <;> simp [Brings, changing_iff]
      | mode m g =>
        cases i with
        | recheck n => by_cases hs : x.seq = .halted <;> simp [Brings, changing_iff, hs]
        | _ => simp [Brings, changing_iff, and_assoc]
  unfold Inp.phantomSafe
  rw [Bool.and_eq_true, Bool.and_eq_true]
  refine (and_congr (and_congr hlaw hchange) hwrite).trans (and_congr_left fun _ => ?_)
  exact ⟨fun ⟨hl, ho, hm⟩ => ⟨hl, ho, hm⟩, fun ⟨hl, ho, hm⟩ => ⟨hl, ho, hm⟩⟩

/-- What keeps R4, beside a path on which no start-up group waits. -/
structure Safe (x : Inp) : Prop where
  held : PhantomHeld x
  started : .startUp ∉ x.waiting
  brings : ∀ o ∈ x.outstanding, Brings x o

/-- Beside the law of the front end that is what `Inp.phantomSafe` says. -/
theorem phantomSafe_iff_safe {x : Inp} (h : x.FrontEndLawful) : x.phantomSafe = true ↔ Safe x := by
  rw [phantomSafe_iff]
  exact ⟨fun ⟨hheld, hbrings⟩ => ⟨hheld, (FrontShape.of_lawful h).started, hbrings⟩,
    fun ⟨hheld, _, hbrings⟩ => ⟨hheld, hbrings⟩⟩

section Kept
variable {x y : Inp} {o : Outstanding}

theorem PhantomHeld.congr (h : PhantomHeld x) (hphantom : y.phantom = x.phantom) (hmode : y.mode = x.mode)
    (hlock : y.lock = x.lock) (hchanging : changing y = changing x) : PhantomHeld y := by
  obtain ⟨hlaw, hon, hm⟩ := h
  constructor <;> simpa only [hphantom, hmode, hlock, hchanging]

/-- What a write brings turns on the change in flight only for a switching write and at a HALTED sequencer. -/
theorem Brings.congr (h : Brings x o) (hphantom : y.phantom = x.phantom) (hmode : y.mode = x.mode)
    (hkept : o.issuer = .switching ∨ x.seq = .halted → y.seq = x.seq ∧ changing y = changing x) : Brings y o := by
  obtain ⟨w, i, left⟩ := o
  cases w with
  | gain g => exact trivial
  | phantom on =>
    intro hon
    rw [hphantom]
    refine (h hon).imp_right ?_
    rintro ⟨hi, hc⟩
    obtain ⟨hseq, hchanging⟩ := hkept (hi.imp_right And.right)
    rw [hseq, hchanging]
    exact ⟨hi, hc⟩
  | mode m g =>
    cases i with
    | startUp n =>
      obtain ⟨hm, hg, hoff⟩ := h
      exact ⟨hm, hg, hmode.trans hoff⟩
    | switching => exact (hkept (.inl rfl)).2.trans h
    | recheck n =>
      obtain ⟨hn, hm⟩ := h
      refine ⟨hn, hm.imp (fun hm => hm.trans hmode.symm) ?_⟩
      rintro ⟨hs, hc⟩
      obtain ⟨hseq, hchanging⟩ := hkept (.inr hs)
      exact ⟨hseq.trans hs, hchanging.trans hc⟩
    | step source => exact h

/-- What R4 turns on. -/
def brought (x : Inp) := (x.phantom, x.mode, x.lock, x.inFlight, x.seq, x.outstanding)

theorem Safe.congr (h : Safe x) (hy : brought y = brought x) (hw : .startUp ∈ y.waiting → .startUp ∈ x.waiting) :
    Safe y := by
  simp only [brought, Prod.mk.injEq] at hy
  obtain ⟨hphantom, hmode, hlock, hin, hseq, hout⟩ := hy
  have hchanging : changing y = changing x := by rw [changing, hin, changing]
  refine ⟨h.held.congr hphantom hmode hlock hchanging, fun hs => h.started (hw hs), fun o ho => ?_⟩
  exact (h.brings o (hout ▸ ho)).congr hphantom hmode fun _ => ⟨hseq, hchanging⟩

theorem phantomSafe_congr (hy : brought y = brought x) : y.phantomSafe = x.phantomSafe := by
  simp only [brought, Prod.mk.injEq] at hy
  obtain ⟨hphantom, hmode, hlock, hin, hseq, hout⟩ := hy
  simp only [Inp.phantomSafe, hphantom, hmode, hlock, hin, hseq, hout]

/-! ## Moving on -/

theorem phantomHeld_moves : PassesMoves PhantomHeld := fun _ _ hm h =>
  h.congr (hm.field _ fun _ _ _ => rfl) (hm.field _ fun _ _ _ => rfl) (hm.field _ fun _ _ _ => rfl)
    (hm.field _ fun _ _ _ => rfl)

/-- A write that a waiting group stands for brings no phantom power of its own (R15, R20). -/
theorem brings_issuable (hstarted : .startUp ∉ x.waiting) (h : Issuable x o) : Brings x o := by
  rcases h with ⟨g, -, -, rfl⟩ | ⟨w, hw, rfl⟩ | rfl | ⟨hw, -⟩
  · exact trivial
  · obtain ⟨c, hc, rfl⟩ := Option.map_eq_some_iff.1 hw
    obtain ⟨m | on, d, a⟩ := c
    · exact congrArg (Option.map Change.value) hc
    · intro hon
      have hon' : on = true := hon
      subst hon'
      exact .inr ⟨.inl rfl, congrArg (Option.map Change.value) hc⟩
  · unfold Inp.recheckMode
    split
    next m d a hc =>
      obtain ⟨hhalted, hin⟩ := haltedChange_eq hc
      exact ⟨rfl, .inr ⟨hhalted, congrArg (Option.map Change.value) hin⟩⟩
    · exact ⟨rfl, .inl rfl⟩
  · exact absurd hw hstarted

theorem safe_moves : PassesMoves Safe := by
  intro x y hm h
  have hphantom : y.phantom = x.phantom := hm.field _ fun _ _ _ => rfl
  have hmode : y.mode = x.mode := hm.field _ fun _ _ _ => rfl
  have hseq : y.seq = x.seq := hm.field _ fun _ _ _ => rfl
  have hchanging : changing y = changing x := hm.field _ fun _ _ _ => rfl
  refine ⟨phantomHeld_moves x y hm h.held, fun hw => h.started (hm.waiting hw), fun o ho => ?_⟩
  have hbrings : Brings x o := (hm.outstanding o ho).elim (h.brings o) (brings_issuable h.started)
  exact hbrings.congr hphantom hmode fun _ => ⟨hseq, hchanging⟩

end Kept

/-! ## Events that bring nothing -/

section Nothing
variable {x : Inp} {v : Env} {e : Ev}

/-- Nothing that R4 turns on differs from input `x`. -/
def BroughtKept (x y : Inp) : Prop := brought y = brought x

theorem broughtKept_handedOver (x : Inp) (incoming : Option Slot) : BroughtKept x (x.handedOver incoming) := by
  rw [handedOver_eq]
  rfl

theorem broughtKept_leave (d : Slot) : BroughtKept e.inp (e.leave d).inp := by
  rw [leave_eq]
  dsimp only
  split
  · exact broughtKept_handedOver { e.inp with queue := e.inp.queue.tail } _
  · rfl

theorem broughtKept_claim (d : Slot) (force : Bool) : BroughtKept e.inp (claimAt d force v e).inp := by
  unfold claimAt
  dsimp only
  split
  · rfl
  split
  · rfl
  split
  · rfl
  split
  · exact broughtKept_handedOver e.inp _
  split
  · rfl
  split
  · exact broughtKept_handedOver (e.inp.leaveQueue d) _
  · rw [Ev.answer_inp, Ev.mod_inp, joinQueue_eq]
    rfl

theorem broughtKept_release (d : Slot) : BroughtKept e.inp (releaseAt d v e).inp := by
  unfold releaseAt
  split
  · rw [handOn_eq]
    exact broughtKept_handedOver { e.inp with queue := e.inp.queue.tail } _
  · split <;> rfl

theorem broughtKept_takeTarget (target rate : Nat) (x : Inp) : BroughtKept x (x.takeTarget target rate) := by
  unfold Inp.takeTarget
  split
  · split <;> rfl
  · split
    · split <;> rfl
    · rfl

theorem broughtKept_endGlide : BroughtKept e.inp (e.endGlide v).inp := by
  cases hg : e.inp.glide with
  | none => rw [endGlide_of_none hg]; rfl
  | some g => rw [endGlide_of_glide hg]; rfl

/-- The events that bear on taps, ownership, gain and window alone. -/
def tacit : InputEvent → Bool
  | .openTap .. | .closeTap _ | .setLevel .. | .setTapMute .. | .claim .. | .release _ | .setGain .. | .stopGlide _
  | .windowExpiry | .leave _ | .retire _ => true
  | _ => false

theorem broughtKept_of_tacit {i : InputEvent} (hi : tacit i = true) (v : Env) (x : Inp) :
    BroughtKept x (i.run v ⟨x, [], .done⟩).inp := by
  cases i with
  | openTap d level =>
    dsimp only [InputEvent.run]
    unfold openTapAt
    split <;> rfl
  | closeTap d =>
    dsimp only [InputEvent.run]
    unfold closeTapAt
    split
    · exact broughtKept_leave (e := ⟨x, [], .done⟩) d
    · rfl
  | setLevel d relative w =>
    dsimp only [InputEvent.run]
    unfold setLevelAt
    split <;> rfl
  | setTapMute d on =>
    dsimp only [InputEvent.run]
    unfold setTapMuteAt
    split <;> rfl
  | claim d force => exact broughtKept_claim (e := ⟨x, [], .done⟩) d force
  | release d => exact broughtKept_release (v := v) (e := ⟨x, [], .done⟩) d
  | setGain d relative w rate =>
    dsimp only [InputEvent.run]
    unfold setGainAt
    split
    · rfl
    split
    · rfl
    · exact broughtKept_takeTarget _ _ x
  | stopGlide d =>
    dsimp only [InputEvent.run]
    unfold stopGlideAt Ev.stopGlide
    split
    · rfl
    split
    · rfl
    split
    · rfl
    · exact broughtKept_endGlide
  | windowExpiry =>
    dsimp only [InputEvent.run]
    unfold windowExpiryAt
    split <;> rfl
  | leave d => exact broughtKept_leave (e := ⟨x, [], .done⟩) d
  | retire d => exact broughtKept_leave (e := ⟨x, [], .done⟩) d
  | _ => cases hi

end Nothing

/-! ## The sequencer's events -/

section Sequencer
variable {x : Inp} {v : Env} {e : Ev}

/-- In IDLE no write outstanding belongs to a change, and no change is in flight (R14, R15). -/
theorem brings_idle (hl : x.FrontEndLawful) (h : Safe x) (hs : x.seq ≠ .switching) (hh : x.seq ≠ .halted) {y : Inp}
    (hphantom : y.phantom = x.phantom) (hmode : y.mode = x.mode) {o : Outstanding} (ho : o ∈ x.outstanding) :
    Brings y o := by
  refine (h.brings o ho).congr hphantom hmode fun hturns => ?_
  rcases hturns with hi | hhalted
  · obtain ⟨-, hno⟩ := (FrontShape.of_lawful hl).not_switching hs
    refine absurd ?_ hno
    rw [Option.mem_def] at ho
    simp [Inp.issuing, ho, hi]
  · exact absurd hhalted hh

/-- A mode request that would take phantom power where it may not be is not judged well (R12). -/
theorem carries_of_judgeMode {m : Mode} (h : x.judgeMode m = none) (hon : x.phantom = true)
    (hcarries : carriesPhantom x.mode = true) : carriesPhantom m = true := by
  have hmode : (x.mode == .mic || x.mode == .line) = true := hcarries
  unfold Inp.judgeMode at h
  split at h
  · cases h
  split at h
  · cases h
  next hno =>
    rw [hon, hmode] at hno
    cases m with
    | mic => rfl
    | line => rfl
    | inst => exact absurd rfl hno
    | off => exact absurd rfl hno

/-- Phantom ON is judged well only where it may be (R13). -/
theorem carries_of_judgePhantom {y : Sys} (h : x.judgePhantom y true = none) :
    carriesPhantom x.mode = true ∧ x.lock = false := by
  unfold Inp.judgePhantom at h
  split at h
  · cases h
  split at h
  · rename_i hoff
    cases hoff
  split at h
  · cases h
  next hmode =>
    split at h
    · cases h
    next hlock =>
      refine ⟨?_, by simpa using hlock⟩
      cases hm : x.mode with
      | mic => rfl
      | line => rfl
      | inst => exact absurd (by rw [hm]; rfl) hmode
      | off => exact absurd (by rw [hm]; rfl) hmode

/-- A mode or phantom request that is judged well leaves the law standing (R12, R13). -/
theorem phantomHeld_started (h : PhantomHeld x) {value : FrontValue} {y : Sys} (hjudge : x.judge y value = none)
    (d : Slot) : PhantomHeld (x.startSequence value d) := by
  cases value with
  | mode m =>
    refine ⟨h.law, nofun, ?_⟩
    rintro _ ⟨⟩ hon
    exact carries_of_judgeMode hjudge hon (h.law hon).1
  | phantom on =>
    refine ⟨h.law, ?_, nofun⟩
    rintro ⟨⟩
    exact carries_of_judgePhantom hjudge

/-- An accepted change starts at an IDLE sequencer (R12 to R14). -/
theorem safe_startSequence (hl : x.FrontEndLawful) (h : Safe x) (hidle : x.seq = .idle) {value : FrontValue} {y : Sys}
    (hjudge : x.judge y value = none) (d : Slot) : Safe (x.startSequence value d) where
  held := phantomHeld_started h.held hjudge d
  started hw := h.started (List.mem_of_mem_filter hw)
  brings _ ho := brings_idle hl h (y := x.startSequence value d) (by rw [hidle]; nofun) (by rw [hidle]; nofun)
    rfl rfl ho

theorem safe_request (hl : e.inp.FrontEndLawful) (h : Safe e.inp) (d : Slot) (value : FrontValue) :
    Safe (requestAt d value v e).inp := by
  unfold requestAt Ev.request
  split
  · exact h
  split
  · exact h
  split
  · split
    · exact h
    · exact h.congr rfl id
  next hidle =>
    split
    · exact h
    next hjudge => exact safe_startSequence hl h (not_not.1 hidle) hjudge d

theorem safe_recheck (h : Safe e.inp) (d : Slot) : Safe (recheckAt d v e).inp := by
  unfold recheckAt
  split
  · exact h
  split
  · exact h
  · refine safe_moves.join (g := .recheck) ?_ (by decide)
    exact h.congr rfl id

/-- A lock is set only while phantom is OFF and no change is in flight (R3). -/
theorem safe_configureInput (hl : e.inp.FrontEndLawful) (h : Safe e.inp) (c : InputConfig) :
    Safe (configureInputAt c v e).inp := by
  unfold configureInputAt
  split
  · exact h
  next hkept =>
    have hlock : c.lock.getD e.inp.lock = true → e.inp.lock = true ∨ (e.inp.phantom = false ∧ e.inp.seq = .idle) := by
      unfold Inp.lockRefused at hkept
      cases hc : c.lock with
      | none => exact .inl
      | some b => cases b <;> cases hx : e.inp.lock <;> simp_all
    have hopen {p : Prop} (hp : p → carriesPhantom e.inp.mode = true ∧ e.inp.lock = false)
        (hfree : e.inp.phantom = false → e.inp.seq = .idle → ¬ p) :
        p → carriesPhantom e.inp.mode = true ∧ c.lock.getD e.inp.lock = false := by
      intro hp'
      obtain ⟨hcarries, hunlocked⟩ := hp hp'
      refine ⟨hcarries, Bool.eq_false_iff.2 fun hset => ?_⟩
      rcases hlock hset with hlocked | ⟨hoff, hidle⟩
      · rw [hunlocked] at hlocked
        cases hlocked
      · exact hfree hoff hidle hp'
    refine ⟨⟨hopen h.held.law ?_, hopen h.held.on ?_, h.held.mode⟩, h.started, h.brings⟩
    · exact fun hoff _ hon => absurd (hoff.symm.trans hon) nofun
    · intro _ hidle hc
      have hc' : changing e.inp = some (.phantom true) := hc
      have hbusy := (FrontShape.of_lawful hl).busy
      rw [← Option.isSome_map (f := Change.value), ← changing, hc'] at hbusy
      exact hbusy.1 rfl hidle

theorem safe_bundleEnd (h : Safe e.inp) : Safe (bundleEndAt v e).inp := by
  unfold bundleEndAt
  split
  · exact h
  next g hg =>
    split
    · exact safe_moves.startGlide h hg
    · unfold Ev.applyRetarget
      dsimp only
      split
      · refine safe_moves.endGlide ?_
        exact h.congr rfl id
      · exact h.congr rfl id
    · exact h

theorem safe_fail (hl : x.FrontEndLawful) (h : Safe x) : Safe (failAt v ⟨x, [], .done⟩).inp := by
  cases ho : x.outstanding with
  | none => rwa [failAt_of_none ho]
  | some o =>
    by_cases hleft : o.left = 0
    · rw [failAt_due ho hleft]
      exact safe_moves.pump (e := ⟨failed o x, _, _⟩)
        ⟨h.held.congr rfl rfl rfl rfl, (frontShape_failed (FrontShape.of_lawful hl) ho).started, nofun⟩
    · rwa [failAt_early ho hleft]

/-- A change that stays what it was goes on to another state, from one that is neither SWITCHING nor HALTED. -/
theorem safe_sequenced (hl : x.FrontEndLawful) (h : Safe x) (hs : x.seq ≠ .switching) (hh : x.seq ≠ .halted)
    {c : Option Change} (hc : c.map Change.value = changing x) (st : SeqState) (settle : Option Nat) (gate : Nat) :
    Safe { x with seq := st, settleLeft := settle, inFlight := c, seqGate := gate } where
  held := h.held.congr rfl rfl rfl hc
  started := h.started
  brings _ ho := by
    refine brings_idle hl h hs hh ?_ ?_ ho <;> rfl

theorem safe_muteRampEnd (hl : e.inp.FrontEndLawful) (h : Safe e.inp) : Safe (muteRampEndAt v e).inp := by
  unfold muteRampEndAt
  split
  next c hc =>
    split
    next hs =>
      have hswitching : e.inp.seq ≠ .switching := by rw [hs.1]; nofun
      have hhalted : e.inp.seq ≠ .halted := by rw [hs.1]; nofun
      split
      · exact safe_sequenced hl h hswitching hhalted (c := some { c with abandoned := true })
          (by rw [changing, hc]; rfl) _ _ _
      · refine safe_moves.join (g := .switching) ?_ (by decide)
        exact safe_sequenced hl h hswitching hhalted rfl _ _ _
    · exact h
  · exact h

theorem safe_settleExpiry (hl : e.inp.FrontEndLawful) (h : Safe e.inp) : Safe (settleExpiryAt v e).inp := by
  unfold settleExpiryAt
  split
  next hs => exact safe_sequenced hl h (by rw [hs.1]; nofun) (by rw [hs.1]; nofun) rfl _ _ _
  · exact h

theorem safe_returned (hl : x.FrontEndLawful) (h : Safe x) (hs : x.seq = .unmuting) :
    Safe { x with seq := .idle, inFlight := none, request := none } where
  held := ⟨h.held.law, nofun, nofun⟩
  started := h.started
  brings _ ho := by
    refine brings_idle hl h (by rw [hs]; nofun) (by rw [hs]; nofun) ?_ ?_ ho <;> rfl

theorem safe_recheckRequest (hl : Inp.FrontEndLawful { e.inp with request := none })
    (h : Safe { e.inp with request := none }) (hidle : e.inp.seq = .idle) (q : Request) :
    Safe (e.recheckRequest v q).inp := by
  unfold Ev.recheckRequest
  dsimp only
  split
  · exact h
  split
  next hjudge => exact safe_startSequence (x := { e.inp with request := none }) hl h hidle hjudge _
  · exact h
  · exact h

theorem safe_unmuteRampEnd (hl : e.inp.FrontEndLawful) (h : Safe e.inp) : Safe (unmuteRampEndAt v e).inp := by
  unfold unmuteRampEndAt
  extract_lets e₁ e₂
  split
  next hs =>
    have hreturned := safe_returned hl h hs.1
    have hlawful := lawful_returned hl hs.1
    have hjudged : Safe e₂.inp := by
      unfold e₂
      split
      · exact safe_recheckRequest (e := e₁) hlawful hreturned rfl _
      · exact hreturned.congr rfl id
    split
    · exact safe_moves.resumeGlide hjudged
    · exact hjudged
  · exact h

theorem safe_guardGlide (h : Safe e.inp) (target : Nat) : Safe (e.guardGlide v target).inp := by
  unfold Ev.guardGlide
  extract_lets step e'
  have hguard : Safe e'.inp := h.congr rfl id
  split
  · exact safe_moves.readyStep hguard
  · exact hguard

theorem safe_threshold (h : Safe e.inp) : Safe (e.threshold v).inp := by
  unfold Ev.threshold
  extract_lets o e₁
  have hcounted : Safe e₁.inp := h.congr rfl id
  change Safe (if o = .backedOff then e₁.backOff v else e₁).inp
  split
  · unfold Ev.backOff
    refine safe_guardGlide ?_ _
    exact hcounted.congr rfl id
  · exact hcounted

theorem safe_clip (h : Safe e.inp) : Safe (clipAt v e).inp := by
  unfold clipAt
  extract_lets e₁
  have hcounted : Safe e₁.inp := h.congr rfl id
  split
  · split
    · exact safe_threshold hcounted
    · exact hcounted
  · exact h

end Sequencer

/-! ## Acknowledgements -/

section Ack
variable {x : Inp} {v : Env} {e : Ev}

/-- A mode that is recorded, or that the change in flight brings, leaves the law standing (R4, R15, R20). -/
theorem phantomHeld_mode (h : PhantomHeld x) {m : Mode} (hm : m = x.mode ∨ changing x = some (.mode m)) (g : Nat) :
    PhantomHeld { x with mode := m, gain := g } := by
  rcases hm with rfl | hc
  · exact h.congr rfl rfl rfl rfl
  · refine ⟨fun hon => ⟨h.mode m hc hon, (h.law hon).2⟩, fun hon => ?_, h.mode⟩
    have hon' : changing x = some (.phantom true) := hon
    rw [hc] at hon'
    cases hon'

/-- The values of the outstanding write recorded leave the law standing (R4, R6). -/
theorem phantomHeld_record (h : PhantomHeld x) {o : Outstanding} (ho : Brings x o) :
    PhantomHeld (x.record o.write) := by
  obtain ⟨w, i, left⟩ := o
  cases w with
  | gain g => exact h.congr rfl rfl rfl rfl
  | mode m g =>
    cases i with
    | startUp n => exact phantomHeld_mode h (.inl (ho.1.trans ho.2.2.symm)) g
    | switching => exact phantomHeld_mode h (.inr ho) g
    | recheck n => exact phantomHeld_mode h (ho.2.imp_right And.right) g
    | step source => exact ho.elim
  | phantom on =>
    refine ⟨fun hon => ?_, h.on, fun m hc hon => ?_⟩
    · exact (ho hon).elim h.law fun hbrings => h.on hbrings.2
    · rcases ho hon with hphantom | hbrings
      · exact h.mode m hc hphantom
      · have hc' : changing x = some (.mode m) := hc
        rw [hbrings.2] at hc'
        cases hc'

/-- What R4 needs while an acknowledgement is handled. -/
def Steady (x : Inp) : Prop := PhantomHeld x ∧ .startUp ∉ x.waiting

theorem steady_moves : PassesMoves Steady := fun x y hm h =>
  ⟨phantomHeld_moves x y hm h.1, fun hw => h.2 (hm.waiting hw)⟩

theorem Steady.congr {y : Inp} (h : Steady x) (hphantom : y.phantom = x.phantom) (hmode : y.mode = x.mode)
    (hlock : y.lock = x.lock) (hin : y.inFlight = x.inFlight) (hwaiting : y.waiting = x.waiting) : Steady y := by
  refine ⟨h.1.congr hphantom hmode hlock (by rw [changing, hin, changing]), ?_⟩
  rw [hwaiting]
  exact h.2

theorem steady_recordTracked (h : Safe x) {o : Outstanding} (ho : o ∈ x.outstanding) (align : Nat) :
    Steady (x.recordTracked align o.write) := by
  have hrecorded : Steady (x.record o.write) := by
    refine ⟨phantomHeld_record h.held (h.brings o ho), ?_⟩
    have hstarted := h.started
    cases o.write <;> exact hstarted
  unfold Inp.recordTracked
  dsimp only
  split
  · exact hrecorded
  · exact hrecorded.congr rfl rfl rfl rfl rfl

theorem steady_clampGlide (h : Steady e.inp) : Steady (e.clampGlide v).inp := by
  unfold Ev.clampGlide
  split
  · exact h
  · dsimp only
    split
    · refine steady_moves.endGlide ?_
      exact h.congr rfl rfl rfl rfl rfl
    · exact h.congr rfl rfl rfl rfl rfl

theorem steady_startSettling (h : Steady x) (y : Sys) : Steady (x.startSettling y) := by
  unfold Inp.startSettling
  split
  · exact h.congr rfl rfl rfl rfl rfl
  · exact h

theorem steady_recheckDone (h : Steady x) (y : Sys) : Steady (x.recheckDone y) := by
  have hcleared : Steady { x with recheck := false, fault := false } := h.congr rfl rfl rfl rfl rfl
  unfold Inp.recheckDone
  dsimp only
  split
  · split
    · exact hcleared.congr rfl rfl rfl rfl rfl
    · exact steady_startSettling hcleared y
  · exact hcleared

theorem steady_toIssuer (h : Steady e.inp) (i : Issuer) : Steady (e.toIssuer v i).inp := by
  unfold Ev.toIssuer
  split
  · refine steady_moves.stepAcked ?_
    exact h.congr rfl rfl rfl rfl rfl
  · exact steady_moves.stepAcked h
  · rw [Ev.mod_inp]
    split
    · exact steady_startSettling h _
    · exact h
  · split
    · exact steady_recheckDone h _
    · exact h
  · exact h

/-- The next write of a group brings no more than the change in flight (R8, R20, R22). -/
theorem safe_moveOn (h : Steady e.inp) (i : Issuer) : Safe (e.moveOn v i).inp := by
  have hdone : Safe { e.inp with outstanding := none } := ⟨h.1.congr rfl rfl rfl rfl, h.2, nofun⟩
  unfold Ev.moveOn
  split
  · obtain ⟨on, c, hinp, hc, hon⟩ := issueRecheckPhantom_inp v (e.mod fun x => { x with outstanding := none })
    dsimp only
    rw [hinp]
    refine ⟨h.1.congr rfl rfl rfl hc, h.2, ?_⟩
    rintro _ ⟨⟩ hset
    have hset' : on = true := hset
    rcases hon with rfl | ⟨hhalted, hvalue⟩
    · exact .inl hset'
    · subst hset'
      exact .inr ⟨.inr ⟨rfl, hhalted⟩, hc.trans hvalue⟩
  · exact ⟨h.1.congr rfl rfl rfl rfl, h.2, by rintro _ ⟨⟩; exact trivial⟩
  · exact ⟨h.1.congr rfl rfl rfl rfl, h.2, by rintro _ ⟨⟩ hset; cases hset⟩
  · refine safe_moves.pump ?_
    exact hdone

theorem safe_ack (h : Safe e.inp) : Safe (ackAt v e).inp := by
  unfold ackAt
  split
  · exact h
  next o ho =>
    have hrecorded := steady_recordTracked h ho v.sys.align
    extract_lets old e₁ e₂
    refine safe_moveOn (steady_toIssuer ?_ _) _
    unfold e₂
    split
    · exact hrecorded
    · exact steady_clampGlide hrecorded

end Ack

/-! ## Every step -/

theorem phantomSafe_event (i : InputEvent) (v : Env) {x : Inp} (hl : x.FrontEndLawful) (h : x.phantomSafe = true) :
    (i.run v ⟨x, [], .done⟩).inp.phantomSafe = true := by
  by_cases hi : tacit i = true
  · rwa [phantomSafe_congr (broughtKept_of_tacit hi v x)]
  have hs := (phantomSafe_iff_safe hl).1 h
  refine (phantomSafe_iff_safe (lawful_event i v hl)).2 ?_
  cases i with
  | request d value => exact safe_request (e := ⟨x, [], .done⟩) hl hs d value
  | recheck d => exact safe_recheck (e := ⟨x, [], .done⟩) hs d
  | configureInput c => exact safe_configureInput (v := v) (e := ⟨x, [], .done⟩) hl hs c
  | bundleEnd => exact safe_bundleEnd (e := ⟨x, [], .done⟩) hs
  | ack => exact safe_ack hs
  | fail => exact safe_fail hl hs
  | muteRampEnd => exact safe_muteRampEnd (e := ⟨x, [], .done⟩) hl hs
  | settleExpiry => exact safe_settleExpiry (v := v) (e := ⟨x, [], .done⟩) hl hs
  | unmuteRampEnd => exact safe_unmuteRampEnd (e := ⟨x, [], .done⟩) hl hs
  | stepTimer => exact safe_moves.stepTimerAt (e := ⟨x, [], .done⟩) hs
  | clip => exact safe_clip (e := ⟨x, [], .done⟩) hs
  | _ => exact absurd rfl hi

theorem phantomSafe_reset (rate96 : Bool) (n : Nat) :
    Inp.phantomSafe { Inp.reset rate96 with unanswered := n } = true := rfl

theorem phantomSafe_tick {x : Inp} (h : x.phantomSafe = true) : x.tick.phantomSafe = true := by
  obtain ⟨hheld, hbrings⟩ := (phantomSafe_iff x).1 h
  refine (phantomSafe_iff _).2 ⟨hheld.congr rfl rfl rfl rfl, fun o' ho' => ?_⟩
  obtain ⟨o, ho, rfl⟩ := Option.map_eq_some_iff.1 ho'
  exact hbrings o ho

/-- What keeps R4 is, beside the law of the front end, a law of every input. -/
theorem phantom_law : InputLaw fun x => x.FrontEndLawful ∧ x.phantomSafe = true where
  event i v _ h := ⟨lawful_event i v h.1, phantomSafe_event i v h.1 h.2⟩
  sample rate96 w x h := ⟨frontEnd_law.sample rate96 w x h.1, h.2⟩
  released d n x h := ⟨frontEnd_law.released d n x h.1, h.2⟩
  late n x h := ⟨frontEnd_law.late n x h.1, h.2⟩
  controlReset x h := by
    refine ⟨lawful_controlReset h.1, ?_⟩
    rw [inp_controlReset]
    exact h.2
  powerOn rate96 n := ⟨lawful_reset rate96 n, phantomSafe_reset rate96 n⟩
  tick _ h := ⟨lawful_tick h.1, phantomSafe_tick h.2⟩

/-- Settles O57: each law passes through every event, and R4 is the first part of what keeps it. -/
theorem frontEndAndPhantomKept : Obligations.FrontEndAndPhantomKept := by
  refine ⟨fun s t h => frontEnd_law.stepLaw.step_kept h, fun s t hl h hstep k => ?_, fun s h k hon => ?_⟩
  · exact (phantom_law.stepLaw.step_kept (fun k => ⟨hl k, h k⟩) hstep k).2
  · obtain ⟨hcarries, hlock⟩ := ((phantomSafe_iff _).1 (h k)).1.law hon
    refine ⟨?_, hlock⟩
    simpa [carriesPhantom] using hcarries

end Sys2Proof.PhantomProofs
end

section
/-! PROOFS. The reset state meets the laws that the steps keep (R118, R142). -/

namespace Sys2Proof.ResetLawProofs

open Sys2Proof Sys2Proof.Machine Sys2Proof.FeedProofs Sys2Proof.QueueProofs Sys2Proof.SlotProofs
  Sys2Proof.GainProofs Sys2Proof.ResetProofs

theorem reset_inp (k : Input) : State.reset.inp k = .reset false := powerOn_inp ..

theorem reset_slot (d : Slot) : State.reset.slot d =
    { SlotRec.reset d with flags := { StickyFlags.clear with supply := false && d == 0 } } := powerOn_slot ..

/-- No slot holds a tap after reset (R38). -/
theorem reset_tap (rate96 : Bool) (d : Slot) : (Inp.reset rate96).tap d = none := Table.get_fill none d

/-- The laws of the inputs at reset, each at the record of an input after power-on reset. -/
theorem inputsLawful_reset : State.reset.GainsInRange ∧ State.reset.TapsLawful ∧ State.reset.OwnershipLawful ∧
    State.reset.FrontEndLawful ∧ State.reset.PhantomSafe ∧ State.reset.GuardsLawful := by
  refine ⟨fun k => ?_, fun k d t ht => ?_, fun k => ?_, fun k => ?_, fun k => ?_, fun k => ?_⟩
  · rw [reset_inp]
    exact inRange_reset false 0
  · rw [reset_inp, reset_tap] at ht
    cases ht
  · rw [reset_inp]
    exact OwnershipProofs.lawful_reset _ false 0
  · rw [reset_inp]
    exact FrontEndProofs.lawful_reset false 0
  · rw [reset_inp]
    exact PhantomProofs.phantomSafe_reset false 0
  · rw [reset_inp]
    exact guardLawful_reset

/-- The laws of the slots and of the port's queues at reset: no slot holds a tap, and nothing is queued. -/
theorem slotsLawful_reset : State.reset.SlotsLawful ∧ State.reset.QueuesBounded ∧ State.reset.BundlesLawful := by
  refine ⟨⟨fun d => ?_, fun k d hk => ?_, nofun⟩, ⟨fun d => ?_, nofun⟩, ⟨fun d => ?_, nofun⟩⟩
  · rw [reset_slot]
    exact lawful_powerOn d false
  · rw [reset_inp, Inp.holds, reset_tap] at hk
    cases hk
  · rw [reset_slot]
    exact ⟨Nat.zero_le 8, Nat.zero_le 4⟩
  · rw [reset_slot]
    exact ⟨nofun, nofun⟩

theorem systemLawful_reset : State.reset.SystemLawful :=
  (systemLawful_iff _).2 ⟨timingsInRange_reset .., (by decide : (5 : Slot) ≠ 0), Nat.zero_le 255, nofun⟩

/-- Settles O60: the laws of inputs, slots, feeds and system, each at the records of the reset state. -/
theorem resetIsLawful : Obligations.ResetIsLawful := by
  obtain ⟨hgains, htaps, hownership, hfront, hphantom, hguards⟩ := inputsLawful_reset
  obtain ⟨hslots, hqueues, hbundles⟩ := slotsLawful_reset
  exact ⟨hgains, htaps, hownership, hslots, hfront, hphantom, feedLawful_powerOn false false 0 [], hqueues, hbundles,
    hguards, systemLawful_reset⟩

end Sys2Proof.ResetLawProofs
end

section
/-! PROOFS. The operations on gain, front end and input settings: SET GAIN, STOP GLIDE, SET MODE, SET PHANTOM,
RECHECK FRONT END and CONFIGURE INPUT (R3, R11 to R17, R20, R55, R56, R70, R78 to R80, R86, R96, R103). -/

namespace Sys2Proof.InputOperationProofs

open Sys2Proof Sys2Proof.Machine Sys2Proof.TapProofs Sys2Proof.GlideProofs Sys2Proof.DeskProofs

section Next
variable {s : State} {r : Run} {p : Pattern} {k : Input} {rest : List Input}
  {past : List (Input × ResultCode)}

theorem exec_setGain {relative : Bool} {v : Byte} {rate : Option Byte} (hs : s.sends r (.setGain p relative v rate))
    (hn : s.nextAt r p false k rest past) :
    exec .setGain s = .next ((s.commit k (setGainAt r.slot relative v rate s.env (untouched s k))).answered r k rest
      past (setGainAt r.slot relative v rate s.env (untouched s k)).code []) :=
  congrArg Host.Outcome.next ((State.applyKind_of_sends hs _).trans (State.onPattern_event hn _))

theorem exec_stopGlide (hs : s.sends r (.stopGlide p)) (hn : s.nextAt r p false k rest past) :
    exec .stopGlide s = .next ((s.commit k (stopGlideAt r.slot s.env (untouched s k))).answered r k rest past
      (stopGlideAt r.slot s.env (untouched s k)).code []) :=
  congrArg Host.Outcome.next ((State.applyKind_of_sends hs _).trans (State.onPattern_event hn _))

theorem exec_setMode {m : Mode} (hs : s.sends r (.setMode p m)) (hn : s.nextAt r p false k rest past) :
    exec .setMode s = .next ((s.commit k (requestAt r.slot (.mode m) s.env (untouched s k))).answered r k rest past
      (requestAt r.slot (.mode m) s.env (untouched s k)).code []) :=
  congrArg Host.Outcome.next ((State.applyKind_of_sends hs _).trans (State.onPattern_event hn _))

theorem exec_setPhantom {on : Bool} (hs : s.sends r (.setPhantom p on)) (hn : s.nextAt r p false k rest past) :
    exec .setPhantom s = .next ((s.commit k (requestAt r.slot (.phantom on) s.env (untouched s k))).answered r k rest
      past (requestAt r.slot (.phantom on) s.env (untouched s k)).code []) :=
  congrArg Host.Outcome.next ((State.applyKind_of_sends hs _).trans (State.onPattern_event hn _))

theorem exec_recheckFrontEnd (hs : s.sends r (.recheckFrontEnd p)) (hn : s.nextAt r p false k rest past) :
    exec .recheckFrontEnd s = .next ((s.commit k (recheckAt r.slot s.env (untouched s k))).answered r k rest past
      (recheckAt r.slot s.env (untouched s k)).code []) :=
  congrArg Host.Outcome.next ((State.applyKind_of_sends hs _).trans (State.onPattern_event hn _))

theorem exec_configureInput {c : InputConfig} (hs : s.sends r (.configureInput p c))
    (hn : s.nextAt r p false k rest past) :
    exec .configureInput s = .next ((s.commit k (configureInputAt c s.env (untouched s k))).answered r k rest past
      (configureInputAt c s.env (untouched s k)).code []) :=
  congrArg Host.Outcome.next ((State.applyKind_of_sends hs _).trans (State.onPattern_event hn _))

end Next

/-! ## SET GAIN (R55, R70, R78 to R80, R103) -/

section Gain
variable {x : Inp}

/-- The base of a relative SET GAIN is the glide's present target, or G (R70, R77). -/
theorem gainBase_eq (x : Inp) : x.gainBase = match x.glide with
    | some g => (g.staged.map Retarget.target).getD g.target
    | none => x.gain := by
  unfold Inp.gainBase Glide.present
  cases x.glide with
  | none => rfl
  | some g =>
    obtain ⟨_, _, _, _, _, _, staged⟩ := g
    cases staged <;> rfl

theorem maxGain_cast (m : Mode) : (maxGain m : Int) = match m with
    | .off => 0
    | .mic => 60
    | .line => 40
    | .inst => 40 := by
  cases m <;> rfl

theorem gainRate_eq (rate : Option Byte) : gainRate rate = match rate with
    | some b => min 100 b.toNat
    | none => 20 := by
  cases rate with
  | none => rfl
  | some b => exact Nat.zero_max _

theorem rateClamped_iff (rate : Option Byte) : rateClamped rate = true ↔ ∃ b ∈ rate, 100 < b.toNat := by
  cases rate <;> simp [rateClamped]

/-- The target taken and the back-off total cleared (R79, R80, R103). -/
def retargeted (target ms : Nat) (x : Inp) : Inp :=
  { x.takeTarget target ms with guard := { (x.takeTarget target ms).guard with total := 0 } }

/-- The glide after a SET GAIN: created, dropped, changed or given a staged retarget (R79, R80). -/
theorem retargeted_eq (target ms : Nat) (x : Inp) :
    let y := { x with guard := { x.guard with total := 0 } }
    retargeted target ms x =
      match x.glide with
      | none => if target = x.gain then y
        else { y with glide := some ⟨target, ms, .owner, .waiting, .absent, none, none⟩ }
      | some g => if g.state = .stepping then { y with glide := some { g with staged := some ⟨target, ms⟩ } }
        else if target = x.gain then y.withoutGlide
        else { y with glide := some { g with target := target, rate := ms } } := by
  unfold retargeted Inp.takeTarget
  cases hg : x.glide with
  | none =>
    by_cases ht : target = x.gain
    · simp only [ht, if_true, hg]
    · simp only [ht, if_false]
  | some g =>
    obtain ⟨_, _, _, state, _, _, _⟩ := g
    cases state with
    | waiting =>
      by_cases ht : target = x.gain
      · simp only [ht, if_true]
        rfl
      · simp only [ht, if_false]
        rfl
    | stepping => rfl

end Gain

/-- Settles O30: the branches of `setGainAt`, with target, rate and the marks of clamping put as numbers. -/
theorem setGainSetsTarget : Obligations.SetGainSetsTarget := by
  intro s r p relative v rate k rest past hs hn x top base delta want target ms clamped y
  have hwant : (wantedGain x relative v.toInt).1 = want := by
    have hbase : (x.gainBase : Int) = base := congrArg Int.ofNat (gainBase_eq x)
    cases relative with
    | true => exact congrArg (· + delta) hbase
    | false => rfl
  have htarget : clampGain x.mode (wantedGain x relative v.toInt).1 = target := by
    have htop : (maxGain x.mode : Int) = top := maxGain_cast x.mode
    rw [hwant, clampGain, clamp, htop]
  have hms : gainRate rate = ms := gainRate_eq rate
  have hclamped : ((wantedGain x relative v.toInt).2 ||
      (clampGain x.mode (wantedGain x relative v.toInt).1 : Int) != (wantedGain x relative v.toInt).1 ||
      rateClamped rate) = true ↔ clamped := by
    rw [htarget, hwant, Bool.or_eq_true, Bool.or_eq_true, rateClamped_iff, bne_iff_ne, or_assoc]
    refine or_congr ?_ Iff.rfl
    cases relative with
    | true => exact bne_iff_ne.trans (and_iff_right rfl).symm
    | false => exact iff_of_false nofun fun hrelative => nomatch hrelative.1
  have hrecord := (congrArg₂ (retargeted · · x) htarget hms).trans (retargeted_eq target ms x)
  rw [exec_setGain hs hn, setGainAt, untouched_inp]
  split
  · rw [commit_answer]
    rfl
  split
  · rw [commit_answer]
    rfl
  · rw [commit_mod_answer]
    have hafter := congrArg (fun z => s.after k z []) hrecord
    exact congrArg Host.Outcome.next
      (congrArg₂ (fun t c => State.answered t r k rest past c []) hafter (clampedIf_congr hclamped))

/-! ## STOP GLIDE (R55, R86) -/

section Stop
variable {v : Env} {e : Ev} {g : Glide} {d : Slot}

theorem stopGlideAt_of_other (h : e.inp.owner ≠ some d) : stopGlideAt d v e = e.answer .notOwner := if_pos h

theorem stopGlideAt_of_owner (h : e.inp.owner = some d) : stopGlideAt d v e = (e.stopGlide v).answer .done :=
  if_neg (not_not.2 h)

theorem stopGlide_of_none (hg : e.inp.glide = none) : e.stopGlide v = e := by
  unfold Ev.stopGlide
  rw [hg]

theorem stopGlide_of_step (hg : e.inp.glide = some g) (hs : g.state = .stepping ∧ g.step = .outstanding) :
    e.stopGlide v = e.mod fun x => { x with
      glide := some { g with target := x.stepCarries, source := .owner, staged := none } } := by
  unfold Ev.stopGlide
  rw [hg]
  exact if_pos hs

/-- Without a step outstanding the glide ends at once, for the owner alone. -/
theorem stopGlide_ends (hg : e.inp.glide = some g) (hs : ¬ (g.state = .stepping ∧ g.step = .outstanding)) :
    e.stopGlide v = ⟨e.inp.withoutGlide, e.out ++ e.inp.owner.toList.map (.raise .glideDone), e.code⟩ := by
  unfold Ev.stopGlide
  rw [hg]
  refine (if_neg hs).trans ?_
  rw [endGlide_of_glide rfl, glideDoneFor, if_neg nofun, List.append_nil]
  rfl

end Stop

/-- Settles O31: the refusal, the two ways in which a glide ends, and the case without one. -/
theorem stopGlideEndsGlide : Obligations.StopGlideEndsGlide := by
  intro s r p k rest past hs hn x
  rw [exec_stopGlide hs hn]
  refine ⟨fun ho => ?_, fun ho hg => ?_, fun g c i left ho hg hstate hstep hout => ?_, fun g ho hg hfree => ?_⟩
  · rw [stopGlideAt_of_other (e := untouched s k) ho, commit_answer]
    rfl
  · rw [stopGlideAt_of_owner (e := untouched s k) ho, stopGlide_of_none hg, commit_answer]
    rfl
  · have hcarries : (s.inp k).stepCarries = c := by
      have hout' : (s.inp k).outstanding = some ⟨.gain c, i, left⟩ := hout
      unfold Inp.stepCarries
      rw [hout']
    rw [stopGlideAt_of_owner (e := untouched s k) ho, stopGlide_of_step hg ⟨hstate, hstep⟩, commit_mod_answer, hcarries]
    rfl
  · have hends : ¬ (g.state = .stepping ∧ g.step = .outstanding) := by
      rintro ⟨hstate, hstep⟩
      rw [hstate, hstep] at hfree
      simp at hfree
    have ho' : (untouched s k).inp.owner = some r.slot := ho
    rw [stopGlideAt_of_owner ho', stopGlide_ends hg hends, ho']
    rfl

/-! ## SET MODE and SET PHANTOM (R11 to R14, R17, R55) -/

section Requests
variable {s : State} {r : Run} {k : Input} {rest : List Input} {past : List (Input × ResultCode)}

theorem judgeMode_eq (m : Mode) (x : Inp) : x.judgeMode m = if m = x.mode then some .done
    else if x.phantom = true ∧ (x.mode = .mic ∨ x.mode = .line) ∧ (m = .inst ∨ m = .off) then some .phantomOn
    else none := by
  unfold Inp.judgeMode
  simp only [Bool.and_eq_true, Bool.or_eq_true, beq_iff_eq, and_assoc]

theorem judgePhantom_eq (y : Sys) (on : Bool) (x : Inp) : x.judgePhantom y on = if on = x.phantom then some .done
    else if on = true ∧ x.mode ≠ .mic ∧ x.mode ≠ .line then some .modeConflict
    else if on = true ∧ x.lock = true then some .locked
    else if on = true ∧ y.psag = true then some .supply
    else none := by
  unfold Inp.judgePhantom
  cases on <;> simp

/-- What a front-end request comes to, with the judgement of an IDLE sequencer left open (R11 to R14, R17, R55). -/
theorem request_answered (value : FrontValue) :
    (s.commit k (requestAt r.slot value s.env (untouched s k))).answered r k rest past
      (requestAt r.slot value s.env (untouched s k)).code [] =
    if (s.inp k).owner ≠ some r.slot then s.answered r k rest past .notOwner []
    else if (s.inp k).fault then s.answered r k rest past .fault []
    else if (s.inp k).seq ≠ .idle then
      if (s.inp k).request.isSome then s.answered r k rest past .busy []
      else (s.after k { s.inp k with request := some ⟨value, r.slot⟩ } []).answered r k rest past .pending []
    else match (s.inp k).judge s.sys value with
      | some c => s.answered r k rest past c []
      | none => (s.after k ((s.inp k).sequenceStarted value r.slot) []).answered r k rest past .done [] := by
  unfold requestAt Ev.request
  rw [untouched_inp]
  split
  · rw [commit_answer]
    rfl
  split
  · rw [commit_answer]
    rfl
  split
  · split
    · rw [commit_answer]
      rfl
    · rw [commit_mod_answer]
      rfl
  change State.answered (s.commit k (match (s.inp k).judge s.sys value with
    | some c => _
    | none => _)) r k rest past (Ev.code (match (s.inp k).judge s.sys value with
    | some c => _
    | none => _)) [] = _
  cases (s.inp k).judge s.sys value with
  | some c =>
    dsimp only
    rw [commit_answer]
    rfl
  | none =>
    dsimp only
    rw [commit_mod_answer]
    rfl

end Requests

/-- Settles O32: a request is judged past owner, fault and sequencer, and a mode or phantom request in its order. -/
theorem frontEndRequestsJudged : Obligations.FrontEndRequestsJudged := by
  refine ⟨fun s r p m k rest past hs hn => ?_, fun s r p on k rest past hs hn => ?_⟩
  · rw [exec_setMode hs hn, request_answered, Inp.judge, judgeMode_eq]
    refine congrArg Host.Outcome.next (ite_congr rfl (fun _ => rfl) fun _ => ite_congr rfl (fun _ => rfl) fun _ =>
      ite_congr rfl (fun _ => rfl) fun _ => ?_)
    by_cases hsame : m = (s.inp k).mode
    · simp only [if_pos hsame]
    by_cases hon : (s.inp k).phantom = true ∧ ((s.inp k).mode = .mic ∨ (s.inp k).mode = .line) ∧
        (m = .inst ∨ m = .off)
    · simp only [if_neg hsame, if_pos hon]
    · simp only [if_neg hsame, if_neg hon]
  · rw [exec_setPhantom hs hn, request_answered, Inp.judge, judgePhantom_eq]
    refine congrArg Host.Outcome.next (ite_congr rfl (fun _ => rfl) fun _ => ite_congr rfl (fun _ => rfl) fun _ =>
      ite_congr rfl (fun _ => rfl) fun _ => ?_)
    by_cases hsame : on = (s.inp k).phantom
    · simp only [if_pos hsame]
    by_cases hmode : on = true ∧ (s.inp k).mode ≠ .mic ∧ (s.inp k).mode ≠ .line
    · simp only [if_neg hsame, if_pos hmode]
    by_cases hlock : on = true ∧ (s.inp k).lock = true
    · simp only [if_neg hsame, if_neg hmode, if_pos hlock]
    by_cases hsupply : on = true ∧ s.sys.psag = true
    · simp only [if_neg hsame, if_neg hmode, if_neg hlock, if_pos hsupply]
    · simp only [if_neg hsame, if_neg hmode, if_neg hlock, if_neg hsupply]

/-! ## RECHECK FRONT END (R5, R20, R56) -/

/-- Settles O33: the three branches of `recheckAt`. -/
theorem recheckJoinsPath : Obligations.RecheckJoinsPath := by
  intro s r p k rest past hs hn x
  rw [exec_recheckFrontEnd hs hn, recheckAt, untouched_inp]
  split
  · rw [commit_answer]
    rfl
  split
  · rw [commit_answer]
    rfl
  · rfl

/-! ## CONFIGURE INPUT (R3, R96) -/

theorem lockRefused_iff (c : InputConfig) (x : Inp) : x.lockRefused c = true ↔
    c.lock = some true ∧ x.lock = false ∧ (x.phantom = true ∨ x.seq ≠ .idle) := by
  simp [Inp.lockRefused, and_assoc]

/-- A new policy, threshold or window restarts the counting, and the back step is taken without (R96). -/
theorem configure_eq (c : InputConfig) (g : Guard) :
    let policy := c.policy.getD g.policy
    let threshold := carried 1 15 g.threshold c.threshold
    let window := carried 1 16 g.window c.window
    let restarts := policy ≠ g.policy ∨ threshold ≠ g.threshold ∨ window ≠ g.window
    g.configure c = { g with
      policy := policy, threshold := threshold, window := window
      backStep := carried 1 6 g.backStep c.backStep
      count := if restarts then 0 else g.count
      timer := if restarts then none else g.timer } := by
  intro policy threshold window restarts
  by_cases hkept : policy = g.policy ∧ threshold = g.threshold ∧ window = g.window
  · have hno : ¬ restarts := fun hre => hre.elim (· hkept.1) fun hre => hre.elim (· hkept.2.1) (· hkept.2.2)
    refine (if_pos hkept).trans ?_
    rw [if_neg hno, if_neg hno, hkept.1, hkept.2.1, hkept.2.2]
  · have hre : restarts := by
      by_contra hno
      simp only [restarts, not_or, not_not] at hno
      exact hkept hno
    refine (if_neg hkept).trans ?_
    rw [if_pos hre, if_pos hre]

/-- A setting is CLAMPED where one of the numbers carried is out of its range. -/
theorem configureCode_eq {a b c : Bool} {p q r : Prop} [Decidable p] [Decidable q] [Decidable r]
    (ha : a = true ↔ ¬ p) (hb : b = true ↔ ¬ q) (hc : c = true ↔ ¬ r) :
    (if a || b || c then ResultCode.clamped else .done) = if p ∧ q ∧ r then .done else .clamped := by
  by_cases hall : p ∧ q ∧ r
  · rw [if_pos hall, if_neg]
    simp only [Bool.or_eq_true, ha, hb, hc]
    tauto
  · rw [if_neg hall, if_pos]
    simp only [Bool.or_eq_true, ha, hb, hc]
    tauto

/-- Settles O43: the lock's judgement, then the settings with the guard's as one record. -/
theorem configureInputApplies : Obligations.ConfigureInputApplies := by
  intro s r p c k rest past hs hn x g within kept policy threshold window restarts
  rw [exec_configureInput hs hn]
  unfold configureInputAt
  rw [untouched_inp]
  by_cases hlock : c.lock = some true ∧ x.lock = false ∧ (x.phantom = true ∨ x.seq ≠ .idle)
  · rw [if_pos hlock, if_pos ((lockRefused_iff c x).2 hlock), commit_answer]
    rfl
  · rw [if_neg hlock, if_neg (mt (lockRefused_iff c x).1 hlock), commit_mod_answer]
    have hcode := configureCode_eq (carriedClamped_iff (by decide : 1 ≤ 15) c.threshold)
      (carriedClamped_iff (by decide : 1 ≤ 16) c.window) (carriedClamped_iff (by decide : 1 ≤ 6) c.backStep)
    have hrecord := congrArg (fun g' => ({ x with
      lock := c.lock.getD x.lock, isProtected := c.isProtected.getD x.isProtected, guard := g' } : Inp))
      (configure_eq c g)
    exact congrArg Host.Outcome.next (congrArg₂ (fun y c => (s.after k y []).answered r k rest past c [])
      hrecord hcode)

end Sys2Proof.InputOperationProofs
end

section
/-! PROOFS. How a command path moves on (R5, R7, R15, R20, R83), a failed write (R7, R10, R91), the ends of the ramps
(R14, R16, R18, R74, R88) and the timers that expire (R16, R85, R98, R138). -/

namespace Sys2Proof.PathEventProofs

open Sys2Proof Sys2Proof.Machine Sys2Proof.GlideProofs Sys2Proof.PathProofs Sys2Proof.StepProofs
  Sys2Proof.FrontEndProofs Sys2Proof.InputOperationProofs

/-! ## The path -/

section Path
variable {v : Env} {x : Inp} {out : List Signal} {c : ResultCode}

/-- A gain clamped into a mode's range (R15). -/
theorem clampGain_nat (m : Mode) (g : Nat) : clampGain m g = min (maxGain m) g := by
  unfold clampGain clamp
  omega

theorem pump_of_free (ho : x.outstanding = none) {ws : List Group} (hw : x.waiting = ws) :
    Ev.pump v ⟨x, out, c⟩ = Ev.issueOldest v ws ⟨x, out, c⟩ := by
  unfold Ev.pump
  rw [hw, ho]
  rfl

section Oldest
variable {e : Ev} {rest : List Group} {g : Glide}

theorem issueOldest_step_none (hg : e.inp.glide = none) :
    e.issueOldest v (.step :: rest) = e.issueOldest v rest := by
  rw [Ev.issueOldest, hg]

theorem issueOldest_step_done (hg : e.inp.glide = some g) (ht : g.target = e.inp.gain) :
    e.issueOldest v (.step :: rest) =
      Ev.issueOldest v rest ⟨e.inp.withoutGlide, e.out ++ glideDoneFor v e.inp g.source, e.code⟩ := by
  rw [Ev.issueOldest, hg, ← endGlide_of_glide hg]
  exact if_pos ht

theorem issueOldest_step_issued (hg : e.inp.glide = some g) (ht : g.target ≠ e.inp.gain) :
    e.issueOldest v (.step :: rest) = ⟨{ e.inp with
      outstanding := some ⟨.gain (stepGain e.inp.gain g.target), .step g.source, ackTimeout⟩
      waiting := rest, glide := some { g with step := .outstanding } }, e.out, e.code⟩ := by
  rw [Ev.issueOldest, hg]
  exact if_neg ht

theorem issueOldest_switching_none (hc : e.inp.inFlight = none) :
    e.issueOldest v (.switching :: rest) = e.issueOldest v rest := by
  rw [Ev.issueOldest, Inp.switchingWrite, hc]
  rfl

theorem issueOldest_switching_issued {ch : Change} (hc : e.inp.inFlight = some ch) :
    e.issueOldest v (.switching :: rest) = ⟨{ e.inp with
      outstanding := some ⟨match ch.value with
        | .mode m => .mode m (clampGain m e.inp.gain)
        | .phantom on => .phantom on, .switching, ackTimeout⟩
      waiting := rest }, e.out, e.code⟩ := by
  rw [Ev.issueOldest, Inp.switchingWrite, hc]
  rfl

end Oldest

/-- The list that is gone through takes the place of the waiting list. -/
theorem issueOldest_waiting (gs ws : List Group) : Ev.issueOldest v gs ⟨{ x with waiting := ws }, out, c⟩ =
    Ev.issueOldest v gs ⟨x, out, c⟩ := by
  induction gs generalizing x ws out with
  | nil => rfl
  | cons a rest ih =>
    cases a with
    | step =>
      rcases Option.eq_none_or_eq_some x.glide with hg | ⟨g, hg⟩
      · rw [issueOldest_step_none (e := ⟨x, out, c⟩) hg, ← ih ws]
        exact issueOldest_step_none hg
      by_cases ht : g.target = x.gain
      · rw [issueOldest_step_done (e := ⟨x, out, c⟩) hg ht]
        refine (issueOldest_step_done hg ht).trans ?_
        exact (ih (x := { x with glide := none }) _).trans (ih (x := { x with glide := none }) _).symm
      · rw [issueOldest_step_issued (e := ⟨x, out, c⟩) hg ht]
        exact issueOldest_step_issued hg ht
    | switching =>
      rcases Option.eq_none_or_eq_some x.inFlight with hc | ⟨ch, hc⟩
      · rw [issueOldest_switching_none (e := ⟨x, out, c⟩) hc, ← ih ws]
        exact issueOldest_switching_none hc
      · rw [issueOldest_switching_issued (e := ⟨x, out, c⟩) hc]
        exact issueOldest_switching_issued hc
    | recheck => rfl
    | startUp => rfl

/-- A step whose target is already G goes with its glide, and the next group is looked at (R83). -/
theorem pump_step_done {rest : List Group} (ho : x.outstanding = none) (hw : x.waiting = .step :: rest) {g : Glide}
    (hg : x.glide = some g) (ht : g.target = x.gain) : Ev.pump v ⟨x, out, .done⟩ =
      Ev.pump v ⟨{ x with glide := none, waiting := rest }, out ++ glideDoneFor v x g.source, .done⟩ := by
  rw [pump_of_free ho hw, pump_of_free (x := { x with glide := none, waiting := rest }) ho rfl,
    issueOldest_step_done (e := ⟨x, out, .done⟩) hg ht]
  exact (issueOldest_waiting (x := { x with glide := none }) _ _).trans
    (issueOldest_waiting (x := { x with glide := none }) _ _).symm

/-- The first write of a recheck in numbers (R20). -/
theorem recheckMode_eq (x : Inp) : x.recheckMode = match x.seq, x.inFlight with
    | .halted, some ⟨.mode m, _, _⟩ => .mode m (min (maxGain m) x.gain)
    | _, _ => .mode x.mode x.gain := by
  have hclamp (m : Mode) := clampGain_nat m x.gain
  unfold Inp.recheckMode Inp.haltedChange
  simp only [hclamp]
  cases x.seq <;> rcases x.inFlight with - | ⟨m | on, d, a⟩ <;> rfl

end Path

/-- Settles O34: the groups in turn, each issued with the value of that moment. -/
theorem pathMovesOn : Obligations.PathMovesOn := by
  intro v x out moved
  refine ⟨?_, fun rest ho hw g hg => ?_, fun rest c ho hw hc => ?_, fun rest ho hw => ?_⟩
  · intro hidle
    cases ho : x.outstanding with
    | some o => exact pump_of_busy (e := ⟨x, out, .done⟩) (by rw [ho]; rfl)
    | none =>
      have hw : x.waiting = [] := hidle.resolve_left (by rw [ho]; nofun)
      have hx : { x with waiting := [] } = x := by rw [← hw]
      refine (pump_of_free ho hw).trans ?_
      exact congrArg (fun y => Ev.mk y out .done) hx
  · split
    next ht => exact pump_step_done ho hw hg ht
    next ht => exact (pump_of_free ho hw).trans (issueOldest_step_issued hg ht)
  · refine (pump_of_free ho hw).trans ((issueOldest_switching_issued hc).trans ?_)
    obtain ⟨m | on, d, a⟩ := c
    · dsimp only
      rw [clampGain_nat]
      rfl
    · rfl
  · refine (pump_of_free ho hw).trans ?_
    have hmode := recheckMode_eq x
    exact congrArg (fun w => Ev.mk { x with
      outstanding := some ⟨w, .recheck 0, 4⟩, waiting := rest } out .done) hmode

/-! ## A failed write (R7, R10, R91) -/

/-- An event that leaves its input as it found it changes nothing. -/
theorem commit_untouched (s : State) (k : Input) : s.commit k ⟨s.inp k, [], .done⟩ = s := State.after_same s k

/-- Settles O38: a failure is not due, or it is and the path moves on from the failed input. -/
theorem writeFailureEntersFault : Obligations.WriteFailureEntersFault := by
  intro s k x
  refine ⟨fun hearly => congrArg Host.Outcome.next ?_, fun o ho hleft => congrArg Host.Outcome.next ?_⟩
  · change s.commit k (failAt s.env ⟨x, [], .done⟩) = s
    cases ho : x.outstanding with
    | none =>
      rw [failAt_of_none ho]
      exact commit_untouched s k
    | some o =>
      rw [failAt_early ho (hearly o ho)]
      exact commit_untouched s k
  · exact congrArg (s.commit k) (failAt_due ho hleft)

/-! ## The end of the mute ramp (R14, R15, R22) -/

theorem muteRampEndAt_ends {v : Env} {x : Inp} {c : Change} (hs : x.seq = .muting) (hgate : x.seqGate = 0)
    (hc : x.inFlight = some c) : muteRampEndAt v ⟨x, [], .done⟩ =
      if c.value = .phantom true ∧ v.sys.psag = true then
        ⟨{ x.unmutingFrom with inFlight := some { c with abandoned := true } },
          [.raise .frontend c.desk, .mark c.desk], .done⟩
      else Ev.pump v ⟨{ x with seq := .switching, waiting := x.waiting ++ [.switching] }, [], .done⟩ := by
  have hends : x.seq = .muting ∧ x.seqGate = 0 := ⟨hs, hgate⟩
  unfold muteRampEndAt
  split
  next c' hc' =>
    obtain rfl : c' = c := Option.some.inj (hc'.symm.trans hc)
    exact if_pos hends
  next hnone => exact nomatch hnone.symm.trans hc

theorem muteRampEndAt_early {v : Env} {x : Inp} (h : x.seq ≠ .muting ∨ x.seqGate ≠ 0) :
    muteRampEndAt v ⟨x, [], .done⟩ = ⟨x, [], .done⟩ := by
  have hearly : ¬ (x.seq = .muting ∧ x.seqGate = 0) := fun ⟨hs, hgate⟩ => h.elim (· hs) (· hgate)
  unfold muteRampEndAt
  split
  · exact if_neg hearly
  · rfl

/-- Settles O39: the two branches of the end, and none elsewhere. -/
theorem muteRampEnds : Obligations.MuteRampEnds := by
  intro s k x
  refine ⟨fun c hs hgate hc => congrArg Host.Outcome.next ?_, fun hno => congrArg Host.Outcome.next ?_⟩
  · refine (congrArg (s.commit k) (muteRampEndAt_ends hs hgate hc)).trans ?_
    exact apply_ite (s.commit k) _ _ _
  · refine (congrArg (s.commit k) (muteRampEndAt_early hno)).trans ?_
    exact commit_untouched s k

/-! ## The end of the unmute ramp (R16, R18, R88) -/

section Unmuted
variable {v : Env} {x : Inp} {out : List Signal}

/-- The glide engine told that the sequencer is free (R88). -/
theorem resumeGlide_eq (hidle : x.seq = .idle) : Ev.resumeGlide v ⟨x, out, .done⟩ = match x.glide with
    | some g => if g.state = .stepping ∧ g.step = .absent then Ev.pump v ⟨x.stepReady g, out, .done⟩
      else ⟨x, out, .done⟩
    | none => ⟨x, out, .done⟩ := by
  unfold Ev.resumeGlide
  rcases Option.eq_none_or_eq_some x.glide with hg | ⟨g, hg⟩
  · simp only [hg]
  · simp only [hg]
    refine ite_congr rfl (fun _ => ?_) fun _ => rfl
    exact readyStep_of_idle (e := ⟨{ x with glide := some { g with timer := none } }, out, .done⟩) rfl hidle

/-- The input whose sequencer has returned to IDLE, its change and its pending request removed (R16, R18). -/
def returned (x : Inp) : Inp := { x with seq := .idle, inFlight := none, request := none }

/-- FRONTEND for the desk of a dropped request, and its mark (R18). -/
def droppedFor (d : Slot) : List Signal := [.raise .frontend d, .mark d]

theorem unmuteRampEndAt_early (h : x.seq ≠ .unmuting ∨ x.seqGate ≠ gateSamples v.sys.rate96) :
    unmuteRampEndAt v ⟨x, out, .done⟩ = ⟨x, out, .done⟩ :=
  if_neg fun ⟨hs, hgate⟩ => h.elim (· hs) (· hgate)

theorem unmuteRampEndAt_of_none (hs : x.seq = .unmuting) (hgate : x.seqGate = gateSamples v.sys.rate96)
    (hq : x.request = none) :
    unmuteRampEndAt v ⟨x, out, .done⟩ = Ev.resumeGlide v ⟨returned x, out, .done⟩ := by
  have hreturned : ({ x with seq := .idle, inFlight := none } : Inp) = returned x := by
    unfold returned
    rw [← hq]
  refine (if_pos ⟨hs, hgate⟩).trans ?_
  simp only [Ev.mod, hq, if_true, ← hreturned]

/-- A pending request is dropped, is complete, or starts a sequence (R18). -/
theorem unmuteRampEndAt_of_request (hs : x.seq = .unmuting) (hgate : x.seqGate = gateSamples v.sys.rate96)
    {value : FrontValue} {d : Slot} (hq : x.request = some ⟨value, d⟩) :
    unmuteRampEndAt v ⟨x, [], .done⟩ =
      if x.owner ≠ some d ∨ x.fault = true then Ev.resumeGlide v ⟨returned x, droppedFor d, .done⟩
      else match x.judge v.sys value with
        | none => ⟨(returned x).sequenceStarted value d, [], .done⟩
        | some .done => Ev.resumeGlide v ⟨returned x, [], .done⟩
        | some _ => Ev.resumeGlide v ⟨returned x, droppedFor d, .done⟩ := by
  refine (if_pos ⟨hs, hgate⟩).trans ?_
  simp only [Ev.mod, hq, Ev.recheckRequest]
  by_cases hdrop : x.owner ≠ some d ∨ x.fault = true
  · rw [if_pos hdrop, if_pos hdrop]
    rfl
  · rw [if_neg hdrop, if_neg hdrop]
    have hjudge : Inp.judge v.sys value { x with seq := .idle, inFlight := none, request := none } =
        x.judge v.sys value := by cases value <;> rfl
    rw [hjudge]
    rcases x.judge v.sys value with - | c
    · rfl
    · cases c <;> rfl

end Unmuted

/-- Settles O40: no pending request, or one that is dropped, is complete or starts a sequence. -/
theorem unmuteRampEnds : Obligations.UnmuteRampEnds := by
  intro s k x full
  refine ⟨fun hno => congrArg Host.Outcome.next ?_, fun hs hgate => ?_⟩
  · refine (congrArg (s.commit k) (unmuteRampEndAt_early hno)).trans ?_
    exact commit_untouched s k
  intro y freed dropped
  refine congrArg Host.Outcome.next ?_
  have hfreed (out : List Signal) : s.commit k (Ev.resumeGlide s.env ⟨returned x, out, .done⟩) = freed out := by
    rw [resumeGlide_eq rfl]
    change s.commit k (match x.glide with | some g => _ | none => _) = match x.glide with | some g => _ | none => _
    cases x.glide with
    | none => rfl
    | some g => exact apply_ite (s.commit k) _ _ _
  change s.commit k (unmuteRampEndAt s.env ⟨x, [], .done⟩) = _
  rcases Option.eq_none_or_eq_some x.request with hq | ⟨⟨value, d⟩, hq⟩
  · rw [unmuteRampEndAt_of_none (v := s.env) hs hgate hq, hfreed, hq]
  rw [unmuteRampEndAt_of_request (v := s.env) hs hgate hq, hq]
  dsimp only
  by_cases hdrop : x.owner ≠ some d ∨ x.fault = true
  · rw [if_pos hdrop, if_pos hdrop, hfreed]
    rfl
  rw [if_neg hdrop, if_neg hdrop]
  cases value with
  | mode m =>
    dsimp only
    rw [Inp.judge, judgeMode_eq]
    by_cases hsame : m = x.mode
    · simp only [if_pos hsame]
      exact hfreed []
    by_cases hlost : x.phantom = true ∧ (x.mode = .mic ∨ x.mode = .line) ∧ (m = .inst ∨ m = .off)
    · simp only [if_neg hsame, if_pos hlost]
      exact hfreed _
    · simp only [if_neg hsame, if_neg hlost]
      rfl
  | phantom on =>
    dsimp only
    rw [Inp.judge, judgePhantom_eq]
    by_cases hsame : on = x.phantom
    · simp only [if_pos hsame]
      exact hfreed []
    by_cases hmode : on = true ∧ x.mode ≠ .mic ∧ x.mode ≠ .line
    · simp only [if_neg hsame, if_pos hmode]
      exact (hfreed _).trans (if_pos ⟨hmode.1, .inl hmode.2⟩).symm
    by_cases hlock : on = true ∧ x.lock = true
    · simp only [if_neg hsame, if_neg hmode, if_pos hlock]
      exact (hfreed _).trans (if_pos ⟨hlock.1, .inr (.inl hlock.2)⟩).symm
    by_cases hsupply : on = true ∧ s.env.sys.psag = true
    · simp only [if_neg hsame, if_neg hmode, if_neg hlock, if_pos hsupply]
      exact (hfreed _).trans (if_pos ⟨hsupply.1, .inr (.inr hsupply.2)⟩).symm
    · simp only [if_neg hsame, if_neg hmode, if_neg hlock, if_neg hsupply]
      refine (if_neg fun ⟨hon, hrefused⟩ => ?_).symm
      obtain hm | hl | hp := hrefused
      · exact hmode ⟨hon, hm⟩
      · exact hlock ⟨hon, hl⟩
      · exact hsupply ⟨hon, hp⟩

/-! ## The timers (R16, R85, R98, R138) -/

section Timers
variable {v : Env} {x : Inp}

/-- A step timer that is due stops, and at an IDLE sequencer the next step is made ready (R85). -/
theorem stepTimerAt_of_glide {g : Glide} (hg : x.glide = some g) : stepTimerAt v ⟨x, [], .done⟩ =
    if g.timer ≠ some 0 then ⟨x, [], .done⟩
    else if x.seq = .idle then Ev.pump v ⟨x.stepReady g, [], .done⟩
    else ⟨{ x with glide := some { g with timer := none } }, [], .done⟩ := by
  unfold stepTimerAt
  simp only [hg, isDue_iff, ne_eq, ite_not]
  refine ite_congr rfl (fun _ => ?_) fun _ => rfl
  split
  next hidle =>
    exact readyStep_of_idle (e := ⟨{ x with glide := some { g with timer := none } }, [], .done⟩) rfl hidle
  next hbusy => exact readyStep_of_busy (e := ⟨{ x with glide := some { g with timer := none } }, [], .done⟩) hbusy

theorem stepTimerAt_of_none (hg : x.glide = none) : stepTimerAt v ⟨x, [], .done⟩ = ⟨x, [], .done⟩ := by
  unfold stepTimerAt
  simp only [hg]

end Timers

/-- Settles O41: each timer acts only where it has no time left. -/
theorem timersExpire : Obligations.TimersExpire := by
  refine ⟨fun s k => congrArg Host.Outcome.next ?_, fun s k => congrArg Host.Outcome.next ?_,
    fun s k => congrArg Host.Outcome.next ?_, fun s d => congrArg Host.Outcome.next ?_⟩
  · refine (apply_ite (s.commit k) _ _ _).trans ?_
    exact ite_congr (by rw [isDue_iff]) (fun _ => rfl) fun _ => commit_untouched s k
  · change s.commit k (stepTimerAt s.env ⟨s.inp k, [], .done⟩) = _
    rcases Option.eq_none_or_eq_some (s.inp k).glide with hg | ⟨g, hg⟩
    · rw [stepTimerAt_of_none hg, commit_untouched, hg]
    rw [stepTimerAt_of_glide hg, hg]
    refine (apply_ite (s.commit k) _ _ _).trans ?_
    refine ite_congr rfl (fun _ => commit_untouched s k) fun _ => ?_
    exact apply_ite (s.commit k) _ _ _
  · refine (apply_ite (s.commit k) _ _ _).trans ?_
    exact ite_congr (by rw [isDue_iff]) (fun _ => rfl) fun _ => commit_untouched s k
  · exact ite_congr (by rw [isDue_iff]) (fun _ => rfl) fun _ => rfl

end Sys2Proof.PathEventProofs
end

section
/-! PROOFS. What the acknowledgement of a write records and where it is handed (R6, R8, R15, R16, R20 to R22, R29,
R64, R68, R84, R89). -/

namespace Sys2Proof.AcknowledgementProofs

open Sys2Proof Sys2Proof.Machine Sys2Proof.GlideProofs Sys2Proof.PathProofs Sys2Proof.StepProofs
  Sys2Proof.HeldProofs Sys2Proof.FrontEndProofs Sys2Proof.InputOperationProofs Sys2Proof.PathEventProofs
  Sys2Proof.LevelProofs Sys2Proof.OwnershipProofs

/-! ## The taps at an acknowledgement (R29, R64, R68) -/

section Taps
variable {align : Nat} {old n : Int} {t : Tap}

/-- A trim that is handed over changes nothing but the list of waiting changes (R36). -/
theorem handAligned_eq (u : Tap) (align : Nat) (old : Int) : u.handAligned align old = { u with
    waiting := if u.trim = old then u.waiting else u.waiting ++ [⟨u.trim, align⟩] } := by
  unfold Tap.handAligned
  split <;> rfl

theorem handAligned_same (t : Tap) (align : Nat) : t.handAligned align t.trim = t := if_pos rfl

/-- An owner's tap at an acknowledgement (R67, R68). -/
theorem ackTap_owner (hr : t.role = .owner) (guardStep : Bool) : ackTap align old n guardStep t =
    if guardStep then Tap.handAligned align t.trim { t with trim := clampTrim (t.trim + 4) } else t := by
  unfold ackTap
  rw [hr]
  cases guardStep with
  | false =>
    simp only [Bool.false_eq_true, if_false, if_true]
    exact congrArg (fun r => { t with role := r }) hr.symm
  | true =>
    rw [handAligned_eq]
    simp only [if_true, clampTrim, clamp]
    rfl

/-- A tap without a desired level, of no owner, is left as it is. -/
theorem ackTap_noLevel (hr : t.role ≠ .owner) (hd : t.desired = none) (guardStep : Bool) :
    ackTap align old n guardStep t = t := by
  unfold ackTap
  rw [hd]
  cases h : t.role with
  | owner => exact absurd h hr
  | tracking => simp only [if_true, ← h, ← hd]
  | clamped => simp only [if_true, ← h, ← hd]

/-- A tap of no owner is tracked to a new net level (R29, R64). -/
theorem ackTap_level (hr : t.role ≠ .owner) {l : Int} (hd : t.desired = some l) (guardStep : Bool) :
    ackTap align old n guardStep t = if n = old then t else (t.track n).handAligned align t.trim := by
  have hmatch : ackTap align old n guardStep t = { t with
      trim := if n = old then t.trim else clampTrim (l - n)
      role := if n = old then t.role else
        if (if n = old then t.trim else clampTrim (l - n)) = l - n then .tracking else .clamped
      waiting := if (if n = old then t.trim else clampTrim (l - n)) = t.trim then t.waiting
        else t.waiting ++ [⟨if n = old then t.trim else clampTrim (l - n), align⟩] } := by
    unfold ackTap
    rw [hd]
    cases h : t.role with
    | owner => exact absurd h hr
    | tracking => rfl
    | clamped => rfl
  rw [hmatch, track_nonOwner hr hd, handAligned_eq]
  by_cases hold : n = old
  · simp only [if_pos hold, if_true]
  · simp only [if_neg hold]
    rfl

/-- A tap of no owner is tracked where N changed (R29, R64). -/
theorem ackTap_nonOwner (hr : t.role ≠ .owner) (guardStep : Bool) : ackTap align old n guardStep t =
    if n = old then t else (t.track n).handAligned align t.trim := by
  cases hd : t.desired with
  | some l => exact ackTap_level hr hd guardStep
  | none =>
    have htrack : t.track n = t := by
      unfold Tap.track
      rw [hd]
      cases h : t.role with
      | owner => exact absurd h hr
      | tracking => rfl
      | clamped => rfl
    rw [ackTap_noLevel hr hd, htrack, handAligned_same, ite_self]

/-- The tap of an acknowledgement that is not a guard step's: computed where N changed (R29, R64). -/
theorem ackTap_tracked : ackTap align old n false t =
    if n = old then t else (t.track n).handAligned align t.trim := by
  by_cases hr : t.role = .owner
  · rw [ackTap_owner hr, track_owner hr, handAligned_same, ite_self]
    exact if_neg nofun
  · exact ackTap_nonOwner hr false

/-- The tap of a guard step's acknowledgement: the owner's trim is raised beside that (R68). -/
theorem ackTap_raised : ackTap align old n true t = (ackTap align old n false t).raiseTrim align := by
  by_cases hr : t.role = .owner
  · rw [ackTap_owner hr, ackTap_owner hr]
    exact (if_pos hr).symm
  · have hkept : (ackTap align old n false t).role ≠ .owner := by
      rw [ackTap_tracked]
      split
      · exact hr
      · exact fun h => hr ((role_track n t).1 ((role_of_levels (levels_handAligned ..)).1 h))
    refine Eq.trans ?_ (if_neg hkept).symm
    rw [ackTap_nonOwner hr, ackTap_nonOwner hr]

end Taps

/-- The input as the acknowledged write is recorded, before the write leaves the path (R6, R29). -/
theorem recordTracked_eq (align : Nat) (w : Write) (x : Inp) :
    x.recordTracked align w = { x.acked align w false with outstanding := x.outstanding } := by
  have htaps : (x.recordTracked align w).taps =
      (x.record w).taps.map (Option.map (ackTap align x.net (x.record w).net false)) := by
    have hf : ackTap align x.net (x.record w).net false = fun t =>
        if (x.record w).net = x.net then t else (t.track (x.record w).net).handAligned align t.trim :=
      funext fun t => ackTap_tracked
    rw [hf]
    unfold Inp.recordTracked
    by_cases hn : (x.record w).net = x.net
    · simp only [if_pos hn]
      refine Table.ext_get fun d => ?_
      rw [Table.get_map]
      exact Option.map_id'.symm
    · simp only [if_neg hn]
      rfl
  have hrest : x.recordTracked align w = { x.record w with taps := (x.recordTracked align w).taps } := by
    unfold Inp.recordTracked
    dsimp only
    split <;> rfl
  rw [hrest, htaps]
  cases w <;> rfl

/-- At a guard step the owner's trim is raised beside that (R68). -/
theorem raiseOwnerTrim_acked (align : Nat) (w : Write) (x : Inp) :
    (x.acked align w false).raiseOwnerTrim align = x.acked align w true := by
  have htaps : ((x.acked align w false).raiseOwnerTrim align).taps = (x.acked align w true).taps := by
    refine Table.ext_get fun d => ?_
    simp only [Inp.raiseOwnerTrim, Inp.acked, Table.get_map, Option.map_map]
    refine congrArg (fun f => Option.map f _) (funext fun t => ?_)
    exact ackTap_raised.symm
  exact congrArg (fun taps => { x.acked align w false with taps := taps }) htaps

/-! ## The acknowledgement handed to its issuer (R6, R68, R71, R84, R89) -/

/-- The values recorded and the mode's clamp applied, with the write still on the path (R6, R71, R89). -/
def recorded (v : Env) (x : Inp) (o : Outstanding) : Ev :=
  let z := (x.acked v.sys.align o.write false).modeClamped v x.mode
  ⟨{ z.1 with outstanding := x.outstanding }, z.2, .done⟩

section Recorded
variable {v : Env} {x : Inp} {o : Outstanding}

theorem modeClamped_same {old : Mode} (h : x.mode = old) : x.modeClamped v old = (x, []) := by
  unfold Inp.modeClamped
  split
  · rfl
  · exact if_pos h

/-- A glide whose targets are clamped ends where its target is then G and no step is outstanding (R89). -/
theorem clampGlide_of_glide {e : Ev} {g : Glide} (hg : e.inp.glide = some g) : e.clampGlide v =
    if g.state = .stepping ∧ g.step ≠ .outstanding ∧ min (maxGain e.inp.mode) g.target = e.inp.gain then
      ⟨e.inp.withoutGlide, e.out ++ glideDoneFor v e.inp g.source, e.code⟩
    else ⟨{ e.inp with glide := some { g with
      target := min (maxGain e.inp.mode) g.target
      staged := g.staged.map fun q => { q with target := min (maxGain e.inp.mode) q.target } } }, e.out, e.code⟩ := by
  unfold Ev.clampGlide
  simp only [hg]
  refine ite_congr rfl (fun _ => ?_) fun _ => rfl
  exact endGlide_of_glide (g := { g with
    target := min (maxGain e.inp.mode) g.target
    staged := g.staged.map fun q => { q with target := min (maxGain e.inp.mode) q.target } }) rfl

/-- A mode that changed has the glide's targets clamped (R71, R89). -/
theorem clampGlide_eq (v : Env) (old : Mode) (y : Inp) (p : Option Outstanding) :
    (if y.mode = old then ⟨{ y with outstanding := p }, [], .done⟩
      else Ev.clampGlide v ⟨{ y with outstanding := p }, [], .done⟩) =
    Ev.mk { (y.modeClamped v old).1 with outstanding := p } (y.modeClamped v old).2 .done := by
  by_cases hold : y.mode = old
  · rw [if_pos hold, modeClamped_same hold]
  rw [if_neg hold]
  unfold Inp.modeClamped
  rcases Option.eq_none_or_eq_some y.glide with hg | ⟨g, hg⟩
  · simp only [hg, Ev.clampGlide]
  · rw [clampGlide_of_glide hg]
    simp only [hg, if_neg hold]
    split
    · rfl
    · rfl

theorem ackAt_eq (ho : x.outstanding = some o) : ackAt v ⟨x, [], .done⟩ =
    ((recorded v x o).toIssuer v o.issuer).moveOn v o.issuer := by
  have hrecorded := recordTracked_eq v.sys.align o.write x
  unfold ackAt
  simp only [ho, Ev.mod, hrecorded]
  rw [← ho]
  refine congrArg (fun e => (Ev.toIssuer v o.issuer e).moveOn v o.issuer) ?_
  exact clampGlide_eq v x.mode (x.acked v.sys.align o.write false) x.outstanding

end Recorded

/-- An acknowledgement that is not a late one, in words of the outstanding write (R6). -/
theorem exec_frontEndAck {s : State} {k : Input} {o : Outstanding} (ho : (s.inp k).outstanding = some o)
    (hlate : s.ackLate k = false) : exec (.frontEndAck k) s = .next ((s.ackJudged k).commit k
      (((recorded s.env (s.inp k) o).toIssuer s.env o.issuer).moveOn s.env o.issuer)) := by
  refine (execFrontEndAck_taken hlate).trans (congrArg Host.Outcome.next ?_)
  unfold State.atInput State.evAt
  rw [State.ackJudged_env, State.ackJudged_inp, ackAt_eq ho]

/-! ## What is recorded and what is kept (R6) -/

section Kept
variable {v : Env} {x : Inp} {o : Outstanding}

/-- A mode's clamp bears on the glide and the waiting step only (R89). -/
theorem modeClamped_frame (v : Env) (old : Mode) (x : Inp) : (x.modeClamped v old).1 =
    { x with glide := (x.modeClamped v old).1.glide, waiting := (x.modeClamped v old).1.waiting } := by
  unfold Inp.modeClamped
  split
  · rfl
  split
  · rfl
  dsimp only
  split <;> rfl

theorem frontMoved_modeClamped (v : Env) (old : Mode) (x : Inp) : FrontMoved x (x.modeClamped v old).1 := by
  unfold FrontMoved
  rw [modeClamped_frame]

theorem frontMoved_raiseOwnerTrim {y : Inp} (h : FrontMoved x y) (align : Nat) :
    FrontMoved (x.raiseOwnerTrim align) (y.raiseOwnerTrim align) := by
  unfold FrontMoved at *
  rw [h]
  rfl

/-- But for sequencer, path and glide, an acknowledgement brings the recorded values and the computed taps (R6). -/
theorem frontMoved_ack (v : Env) (x : Inp) (o : Outstanding) :
    FrontMoved (x.acked v.sys.align o.write (o.issuer == .step .guard))
      (((recorded v x o).toIssuer v o.issuer).moveOn v o.issuer).inp := by
  have hrecorded : FrontMoved (x.acked v.sys.align o.write false) (recorded v x o).inp :=
    (frontMoved_modeClamped v x.mode _).trans rfl
  refine FrontMoved.moveOn ?_ o.issuer
  refine FrontMoved.trans ?_ (frontMoved_toIssuer o.issuer)
  by_cases hi : o.issuer = .step .guard
  · rw [if_pos hi, hi, beq_self_eq_true, ← raiseOwnerTrim_acked]
    exact frontMoved_raiseOwnerTrim hrecorded _
  · have hno : (o.issuer == .step .guard) = false := beq_eq_false_iff_ne.2 hi
    rwa [if_neg hi, hno]

end Kept

theorem ackJudged_freeCount (s : State) (k : Input) : s.ackJudged k =
    { s with freeCount := if (s.inp k).unanswered = 0 then s.freeCount else s.freeCount + 1 } := by
  unfold State.ackJudged
  split <;> rfl

/-- The frame of an event at one input. -/
theorem eventFrame_commit (s : State) (k : Input) (e : Ev) : eventFrame k s (s.commit k e) := by
  obtain ⟨hinp, hexec, hsys, hport, hfree, hpend, hslots⟩ := State.commit_spec s k e
  exact ⟨fun j hj => (hinp j).trans (if_neg hj), fun d => (hslots d).1, hexec, hsys, hport, hfree, hpend⟩

theorem net_eq (x : Inp) : x.net = 4 * ((x.gain : Int) + if x.mode = .line then -20 else 0) := by
  unfold Inp.net netLevel
  cases x.mode <;> rfl

/-- Settles O35: which acknowledgement is a late one, and what the outstanding write's records. -/
theorem acknowledgementRecords : Obligations.AcknowledgementRecords := by
  refine ⟨fun s k => ?_, fun s k hlate => ?_, fun s k ho hnone => ?_, net_eq, fun s k o ho hlate => ?_⟩
  · simp [State.ackLate]
  · obtain ⟨hunanswered, -⟩ : (s.inp k).unanswered ≠ 0 ∧ _ := by simpa [State.ackLate] using hlate
    refine (execFrontEndAck_late hlate).trans (congrArg Host.Outcome.next ?_)
    rw [ackJudged_freeCount, if_neg hunanswered]
    rfl
  · have hlate : s.ackLate k = false := by simp [State.ackLate, hnone]
    refine (execFrontEndAck_taken hlate).trans (congrArg Host.Outcome.next ?_)
    rw [State.ackJudged, if_pos hnone]
    unfold State.atInput State.evAt ackAt
    simp only [ho]
    exact commit_untouched s k
  · refine ⟨_, exec_frontEndAck ho hlate, ?_⟩
    have hmoved := frontMoved_ack s.env (s.inp k) o
    refine ⟨?_, ?_⟩
    · rw [← ackJudged_freeCount]
      exact eventFrame_commit ..
    · rw [State.commit_inp_self]
      unfold FrontMoved at hmoved
      rw [hmoved]
      refine ⟨?_, ?_, ?_, ?_, ?_, ?_, ?_, ?_, ?_, ?_⟩
      · cases o.write <;> exact ⟨rfl, rfl, rfl⟩
      all_goals cases o.write <;> rfl

/-! ## The acknowledgement of a glide step (R68, R84, R85) -/

section Step
variable {v : Env} {x : Inp} {gain left : Nat} {source : GlideSource}

/-- A step's acknowledgement reaches the glide engine with the gain recorded and the taps computed (R68, R84). -/
theorem toIssuer_step (v : Env) (x : Inp) (gain left : Nat) (source : GlideSource) :
    (recorded v x ⟨.gain gain, .step source, left⟩).toIssuer v (.step source) = Ev.stepAcked v
      ⟨{ x.acked v.sys.align (.gain gain) (source == .guard) with outstanding := x.outstanding }, [], .done⟩ := by
  have hclamp : (x.acked v.sys.align (.gain gain) false).modeClamped v x.mode =
      (x.acked v.sys.align (.gain gain) false, []) := modeClamped_same rfl
  unfold recorded
  simp only [hclamp]
  cases source with
  | owner => rfl
  | guard =>
    rw [beq_self_eq_true, ← raiseOwnerTrim_acked]
    rfl

/-- The glide engine has the acknowledgement, the write leaves the path, and the path moves on (R5, R84). -/
theorem moveOn_stepAcked {y : Inp} (hfree : y.outstanding = none) {p : Option Outstanding} (hp : p.isSome = true)
    {g : Glide} (hg : y.glide = some g) (hs : g.step = .outstanding) :
    (Ev.stepAcked v ⟨{ y with outstanding := p }, [], .done⟩).moveOn v (.step source) =
      if y.gain = g.target then Ev.pump v ⟨y.withoutGlide, glideDoneFor v y g.source, .done⟩
      else if y.seq ≠ .idle then Ev.pump v ⟨{ y with glide := some { g with step := .absent } }, [], .done⟩
      else if g.rate = 0 then Ev.pump v ⟨{ y with
        glide := some { g with step := .ready }, waiting := y.waiting ++ [.step] }, [], .done⟩
      else Ev.pump v ⟨{ y with glide := some { g with step := .absent, timer := some g.rate } }, [], .done⟩ := by
  have hcase := stepAcked_eq (v := v) (e := ⟨{ y with outstanding := p }, [], .done⟩) hg hs hp
  refine (congrArg (Ev.moveOn v (.step source)) hcase).trans ?_
  cases y
  subst hfree
  refine (apply_ite (Ev.moveOn v (.step source)) _ _ _).trans (ite_congr rfl (fun _ => rfl) fun _ => ?_)
  refine (apply_ite (Ev.moveOn v (.step source)) _ _ _).trans (ite_congr rfl (fun _ => rfl) fun _ => ?_)
  exact apply_ite (Ev.moveOn v (.step source)) _ _ _

/-- A step whose glide is gone or replaced ends there (R84). -/
theorem stepAcked_other {e : Ev} (h : ∀ g, e.inp.glide = some g → g.step ≠ .outstanding) : e.stepAcked v = e := by
  unfold Ev.stepAcked
  split
  · rfl
  next g hg => exact if_neg (h g hg)

end Step

/-- The path of an input that has an acknowledgement moves on (R5). -/
theorem commit_pump (s : State) (k : Input) (y : Inp) (out : List Signal) :
    (s.ackJudged k).commit k (Ev.pump s.env ⟨y, out, .done⟩) = (s.ackJudged k).afterPath k y out := by
  rw [State.afterPath, State.ackJudged_env]

/-- Settles O36: no glide, another glide, and the four outcomes for the glide whose step it was. -/
theorem stepAcknowledged : Obligations.StepAcknowledged := by
  intro s k gain left source ho hlate x u y
  refine (exec_frontEndAck ho hlate).trans (congrArg Host.Outcome.next ?_)
  rw [toIssuer_step]
  have hbusy : x.outstanding.isSome = true := by
    rw [show x.outstanding = _ from ho]
    rfl
  rcases Option.eq_none_or_eq_some x.glide with hg | ⟨g, hg⟩
  · have hnone (g' : Glide) (hg' : x.glide = some g') : g'.step ≠ .outstanding := nomatch hg.symm.trans hg'
    rw [hg, stepAcked_other hnone]
    exact commit_pump s k y []
  rw [hg]
  by_cases hs : g.step = .outstanding
  · have hfree : y.outstanding = none := rfl
    have hglide : y.glide = some g := hg
    have hmoved := congrArg (u.commit k)
      (moveOn_stepAcked (v := s.env) (source := source) hfree hbusy hglide hs)
    have hgain : y.gain = gain := rfl
    have hseq : y.seq = x.seq := rfl
    have hdone : glideDoneFor s.env y = glideDoneFor s.env x := rfl
    refine hmoved.trans (Eq.trans ?_ (if_neg (not_not.2 hs)).symm)
    clear_value y
    refine (apply_ite (u.commit k) _ _ _).trans (ite_congr (by rw [hgain]) (fun _ => ?_) fun _ => ?_)
    · rw [hdone]
      exact commit_pump ..
    refine (apply_ite (u.commit k) _ _ _).trans (ite_congr (by rw [hseq]) (fun _ => commit_pump ..) fun _ => ?_)
    refine (apply_ite (u.commit k) _ _ _).trans (ite_congr rfl (fun _ => commit_pump ..) fun _ => ?_)
    exact commit_pump ..
  · have hother (g' : Glide) (hg' : x.glide = some g') : g'.step ≠ .outstanding := by
      obtain rfl : g = g' := Option.some.inj (hg.symm.trans hg')
      exact hs
    have hhere : g.step ≠ .outstanding := hs
    rw [stepAcked_other hother]
    simp only [if_pos hhere]
    exact commit_pump s k y []

/-! ## The acknowledgements of the other groups (R8, R15, R16, R20 to R22) -/

section Group
variable {v : Env} {y : Inp} {p : Option Outstanding} {out : List Signal}

/-- A switching write takes the sequencer to SETTLING, and the path moves on (R15, R16). -/
theorem moveOn_switching (hfree : y.outstanding = none) (hs : y.seq = .switching) {c : Change}
    (hc : y.inFlight = some c) :
    (Ev.toIssuer v .switching ⟨{ y with outstanding := p }, out, .done⟩).moveOn v .switching = Ev.pump v
      ⟨{ y with seq := .settling, settleLeft := some (settleTime v.sys c.value) }, out, .done⟩ := by
  rw [toIssuer_switching hs hc]
  cases y
  subst hfree
  rfl

/-- The second write of a recheck: the change of a HALTED sequencer where it is one of phantom and not abandoned, and
the recorded phantom state otherwise; phantom ON under PSAG abandons the change (R20, R22). -/
theorem moveOn_recheckMode :
    (Ev.toIssuer v (.recheck 0) ⟨{ y with outstanding := p }, out, .done⟩).moveOn v (.recheck 0) =
      match y.seq, y.inFlight with
      | .halted, some ⟨.phantom on, d, false⟩ =>
        if on = true ∧ v.sys.psag = true then
          ⟨{ y with
            outstanding := some ⟨.phantom y.phantom, .recheck 1, 4⟩
            inFlight := some ⟨.phantom on, d, true⟩ }, out ++ [.raise .frontend d, .mark d], .done⟩
        else ⟨{ y with outstanding := some ⟨.phantom on, .recheck 1, 4⟩ }, out, .done⟩
      | _, _ => ⟨{ y with outstanding := some ⟨.phantom y.phantom, .recheck 1, 4⟩ }, out, .done⟩ := by
  change Ev.issueRecheckPhantom v ⟨{ y with outstanding := none }, out, .done⟩ = _
  unfold Ev.issueRecheckPhantom Inp.haltedChange
  obtain ⟨_, _, _, _, _, _, _, seq, inFlight, _⟩ := y
  cases seq with
  | halted =>
    rcases inFlight with - | ⟨m | on, d, - | -⟩
    · rfl
    · rfl
    · rfl
    · simp only [if_true, Bool.and_eq_true]
      split <;> rfl
    · rfl
  | _ => rfl

/-- The third write of a recheck ends it and frees a HALTED sequencer (R21). -/
theorem moveOn_recheckGain (hfree : y.outstanding = none) :
    (Ev.toIssuer v (.recheck 2) ⟨{ y with outstanding := p }, out, .done⟩).moveOn v (.recheck 2) =
      Ev.pump v ⟨y.recheckDone v.sys, out, .done⟩ := by
  have hdone : { Inp.recheckDone v.sys { y with outstanding := p } with outstanding := none } =
      y.recheckDone v.sys := by
    obtain ⟨_, _, _, _, _, _, _, seq, inFlight, _⟩ := y
    subst hfree
    cases seq with
    | halted => rcases inFlight with - | ⟨_, _, - | -⟩ <;> rfl
    | _ => rfl
  exact congrArg (fun w => Ev.pump v ⟨w, out, .done⟩) hdone

end Group

/-- Settles O37: each issuer has its acknowledgement, and the write that follows is issued or the path moves on. -/
theorem groupAcknowledged : Obligations.GroupAcknowledged := by
  intro s k o ho hlate x u z y settle
  have hsettle (c : Change) : settle c = settleTime s.sys c.value := by
    obtain ⟨m | on, d, a⟩ := c
    · rfl
    · cases on <;> rfl
  have hclamped : y = _ := modeClamped_frame s.env x.mode (x.acked s.sys.align o.write false)
  have hfree : y.outstanding = none := by rw [hclamped]; rfl
  have hseq : y.seq = x.seq := by rw [hclamped]; cases o.write <;> rfl
  have hin : y.inFlight = x.inFlight := by rw [hclamped]; cases o.write <;> rfl
  clear hclamped
  have hexec {i : Issuer} (hi : o.issuer = i) : exec (.frontEndAck k) s = .next (u.commit k
      ((Ev.toIssuer s.env i ⟨{ y with outstanding := x.outstanding }, z.2, .done⟩).moveOn s.env i)) := by
    rw [← hi]
    exact exec_frontEndAck ho hlate
  clear_value y
  refine ⟨fun c hi hs hc => ?_, fun hi => ?_, fun hi => ?_, fun hi => ?_, fun hi => ?_, fun hi => ?_⟩
  · rw [hexec hi, moveOn_switching hfree (hseq.trans hs) (hin.trans hc), hsettle]
    exact congrArg Host.Outcome.next (commit_pump ..)
  · rw [hexec hi, moveOn_recheckMode, ← hseq, ← hin]
    refine congrArg Host.Outcome.next ?_
    clear hexec hfree hseq hin
    obtain ⟨_, _, _, _, _, _, _, seq, inFlight, _⟩ := y
    cases seq with
    | halted =>
      rcases inFlight with - | ⟨m | on, d, - | -⟩
      · rfl
      · rfl
      · rfl
      · exact apply_ite (u.commit k) _ _ _
      · rfl
    | _ => rfl
  · rw [hexec hi]
    rfl
  · rw [hexec hi, moveOn_recheckGain hfree, ← hseq, ← hin]
    refine congrArg Host.Outcome.next ((commit_pump ..).trans ?_)
    clear hexec hfree hseq hin
    obtain ⟨_, _, _, _, _, _, _, seq, inFlight, _⟩ := y
    cases seq with
    | halted =>
      rcases inFlight with - | c
      · rfl
      · refine (congrArg (u.afterPath k · z.2) (recheckDone_halted s.env.sys rfl rfl)).trans ?_
        dsimp only
        rw [hsettle]
        exact apply_ite (u.afterPath k · z.2) _ _ _
    | _ => rfl
  · rw [hexec hi]
    rfl
  · have hsame : { y with outstanding := none } = y := by rw [← hfree]
    rw [hexec hi]
    refine congrArg Host.Outcome.next ((commit_pump s k { y with outstanding := none } z.2).trans ?_)
    rw [hsame]

end Sys2Proof.AcknowledgementProofs
end

section
/-! PROOFS. A slot that leaves its inputs: the presence expiry (R57, R113, R114) and the teardown of CLOSE DESK (R59,
R110), with what they raise and mark (R53, R134). -/

namespace Sys2Proof.LeavingProofs

open Sys2Proof Sys2Proof.Machine Sys2Proof.TapProofs Sys2Proof.GlideProofs Sys2Proof.DeskProofs Sys2Proof.NoticeProofs
  Sys2Proof.SlotProofs Sys2Proof.HandOverProofs Sys2Proof.FrameProofs

/-! ## What a slot that leaves an input raises and changes -/

section Leave
variable {d c : Slot} {x : Inp} {n : Sticky}

theorem leave_out (d : Slot) (x : Inp) : (Ev.leave d ⟨x, [], .done⟩).out =
    if x.owner = some d then ownershipFor x x.queue.head? else [] := by
  rw [leave_eq]
  rfl

/-- OWNERSHIP for the slot that leaves as the owner, and for the head of the queue that follows it (R53). -/
theorem raise_mem_leave : .raise n c ∈ (Ev.leave d ⟨x, [], .done⟩).out ↔
    n = .ownership ∧ x.owner = some d ∧ (c = d ∨ x.queue.head? = some c) := by
  rw [leave_out]
  by_cases ho : x.owner = some d
  · rw [if_pos ho, ownershipFor, ho]
    simp only [List.mem_map, List.mem_append, Option.mem_toList, Option.some.injEq, Signal.raise.injEq,
      true_and]
    constructor
    · rintro ⟨e, he, rfl, rfl⟩
      exact ⟨rfl, he.imp Eq.symm id⟩
    · rintro ⟨rfl, he⟩
      exact ⟨c, he.imp Eq.symm id, rfl, rfl⟩
  · rw [if_neg ho]
    exact iff_of_false nofun fun h => ho h.2.1

/-- No mark is set by name. -/
theorem mark_not_mem_leave : .mark c ∉ (Ev.leave d ⟨x, [], .done⟩).out := by
  rw [leave_out]
  split
  · simp [ownershipFor]
  · nofun

/-- Owner or claim queue of the input changes, whose record does with it (R134). -/
theorem leave_view_ne (h : x.owner = some d ∨ d ∈ x.queue) :
    x.view ≠ (Ev.leave d ⟨x, [], .done⟩).inp.view := by
  intro hv
  have howner : x.owner = (Ev.leave d ⟨x, [], .done⟩).inp.owner := congrArg RecordView.owner hv
  have hqueue : x.queue = (Ev.leave d ⟨x, [], .done⟩).inp.queue := congrArg RecordView.queue hv
  rw [leave_eq] at howner hqueue
  dsimp only at howner hqueue
  by_cases ho : x.owner = some d
  · rw [if_pos ho, handedOver_eq] at howner hqueue
    obtain ⟨rest, hq⟩ := List.head?_eq_some_iff.1 (howner.symm.trans ho)
    rw [hq] at hqueue
    exact List.cons_ne_self d rest hqueue
  · rw [if_neg ho] at hqueue
    have hstays := List.filter_eq_self.1 hqueue.symm d (h.resolve_left ho)
    rw [bne_self_eq_false] at hstays
    cases hstays

theorem holds_of_view {y : Inp} (h : x.view = y.view) (c : Slot) : x.holds c = y.holds c :=
  (holders_eq_iff x y).1 (congrArg RecordView.holders h) c

/-- The slot's tap goes, and the set of tap holders with it (R134). -/
theorem retire_view_ne (h : x.holds d = true) : x.view ≠ (Ev.retire d ⟨x, [], .done⟩).inp.view := by
  intro hv
  have hholds := holds_of_view hv d
  rw [retire_holds, h, bne_self_eq_false] at hholds
  cases hholds

/-- A change of the record marks for the tap holders after it and for the observers (R134). -/
theorem changeMarks_of_view {y : Inp} (h : x.view ≠ y.view) (r : SlotRec) : changeMarks x y c r = true ↔
    r.state ≠ .closed ∧ (y.holds c = true ∨ r.perms.observer = true) := by
  rw [changeMarks_iff]
  refine and_congr_right fun _ => ⟨fun hm => ?_, fun hm => .inl ⟨h, hm⟩⟩
  exact hm.elim And.right fun htap => .inl htap.1

end Leave

/-! ## The visits to the inputs that a slot leaves -/

/-- The event at each input raises what the slot's leaving raises. -/
def RaisesLeaving (s : State) (d : Slot) (f : Env → Ev → Ev) : Prop :=
  ∀ k, (s.evAt k f).out = (Ev.leave d ⟨s.inp k, [], .done⟩).out

section Visits
variable {s t : State} {d : Slot} {f : Env → Ev → Ev} {V : Input → Prop}

theorem raisedAt_leaving (hf : RaisesLeaving s d f) {n : Sticky} {c : Slot} : RaisedAt s f V n c ↔
    n = .ownership ∧ (s.slot c).state ≠ .closed ∧
      ∃ k, V k ∧ (s.inp k).owner = some d ∧ (c = d ∨ (s.inp k).queue.head? = some c) := by
  unfold RaisedAt
  rw [live_iff]
  constructor
  · rintro ⟨hlive, k, hk, hraised⟩
    rw [hf k, raise_mem_leave] at hraised
    exact ⟨hraised.1, hlive, k, hk, hraised.2⟩
  · rintro ⟨hn, hlive, k, hk, howner⟩
    refine ⟨hlive, k, hk, ?_⟩
    rw [hf k, raise_mem_leave]
    exact ⟨hn, howner⟩

theorem markedAt_leaving (hf : RaisesLeaving s d f) {k : Input} (hview : (s.inp k).view ≠ (s.evAt k f).inp.view)
    (c : Slot) : MarkedAt s f k c ↔ (s.slot c).state ≠ .closed ∧
      ((s.evAt k f).inp.holds c = true ∨ (s.slot c).perms.observer = true) := by
  unfold MarkedAt
  rw [hf k, or_iff_right mark_not_mem_leave, changeMarks_of_view hview, live_iff, and_self_left]

/-- No GLIDE_DONE is raised, so the pulse windows stay as they are (R138). -/
theorem pulse_leaving (h : Visited s f V t) (hf : RaisesLeaving s d f) (c : Slot) :
    (t.slot c).pulse = (s.slot c).pulse := by
  refine h.unopened c fun hraised => ?_
  cases ((raisedAt_leaving hf).1 hraised).1

/-- A slot's own part bears on its record only. -/
theorem restKept_modSlot (h : restKept s t) (c : Slot) (g : SlotRec → SlotRec) : restKept s (t.modSlot c g) := h

end Visits

/-! ## CLOSE DESK (R59, R110) -/

section Close
variable (s : State) (d : Slot)

/-- The taps of the slot retired, input by input. -/
def retired : State := s.atInputs (fun x => x.holds d) fun _ e => e.retire d

theorem visited_retired : Visited s (fun _ e => e.retire d) (fun k => (s.inp k).holds d = true) (retired s d) :=
  visited_atInputs (f := fun _ e => e.retire d) (fun _ _ _ _ => rfl) s fun x => x.holds d

theorem closeDeskOne_system : closeDeskOne 0 s = ⟨s, .deskState, []⟩ := if_pos rfl

variable {s d}

theorem closeDeskOne_closed (hd : d ≠ 0) (h : (s.slot d).state = .closed) : closeDeskOne d s = ⟨s, .done, []⟩ :=
  (if_neg hd).trans (if_pos h)

theorem closeDeskOne_torn (hd : d ≠ 0) (h : (s.slot d).state ≠ .closed) :
    closeDeskOne d s = ⟨(retired s d).modSlot d SlotRec.tearDown, .done, []⟩ :=
  (if_neg hd).trans (if_neg h)

end Close

/-- A desk operation that is done, without an image (R108). -/
theorem gatherSingle_done (u : State) (r : Run) :
    u.gatherSingle r .done [] = u.gather r ⟨.done, 1, 1, 0, none, []⟩ := rfl

/-- Settles O48: the slot's taps retired at the inputs where it holds one, and its own record torn down. -/
theorem closeDeskTearsDown : Obligations.CloseDeskTearsDown := by
  intro s r d hs
  have hexec : exec .closeDesk s = .next ((closeDeskOne d s).state.gatherSingle r (closeDeskOne d s).code
      (closeDeskOne d s).image) := by
    rw [exec_closeDesk hs, onDesk_of_named (namedSlot_ofNat d)]
  refine ⟨fun hd => ?_, fun hd hclosed => ?_, fun hd hopen => ?_⟩
  · subst hd
    rw [hexec, closeDeskOne_system]
    rfl
  · rw [hexec, closeDeskOne_closed hd hclosed, gatherSingle_done]
  have hvisited := visited_retired s d
  have hraises : RaisesLeaving s d fun _ e => e.retire d := fun _ => rfl
  refine ⟨(retired s d).modSlot d SlotRec.tearDown, ?_, ?_, fun k => ?_, ?_, fun c hc => ?_⟩
  · rw [hexec, closeDeskOne_torn hd hopen, gatherSingle_done]
  · exact restKept_modSlot (State.atInputs_rest s (fun x => x.holds d) fun _ e => e.retire d).2 _ _
  · intro x left
    rw [State.modSlot_inp]
    split
    next hholds =>
      rw [hvisited.visited k hholds, State.evAt, Ev.retire, leave_eq]
      rfl
    next hnot => exact hvisited.unvisited k hnot
  · rw [State.modSlot_slot_self, hvisited.slots d]
    rfl
  rw [State.modSlot_slot_ne _ _ hc]
  refine ⟨hvisited.slots c, pulse_leaving hvisited hraises c, fun n => ?_, fun k => ?_⟩
  · rw [hvisited.flags, raisedAt_leaving hraises]
    simp only [hc, false_or]
  · rw [hvisited.marks]
    refine or_congr_right ?_
    have hholds : ((s.evAt k fun _ e => e.retire d).inp).holds c = (s.inp k).holds c := by
      rw [State.evAt, retire_holds, bne_iff_ne.2 hc, Bool.true_and]
    rw [and_left_comm, ← hholds]
    refine and_congr_right fun hk => ?_
    exact markedAt_leaving hraises (retire_view_ne hk) c

/-! ## The presence expiry (R57, R113, R114) -/

theorem execPresenceTimerExpiry_early {s : State} {d : Slot}
    (h : (s.slot d).state ≠ .opened ∨ (s.slot d).timer ≠ some 0) : execPresenceTimerExpiry d s = .next s := by
  refine congrArg Host.Outcome.next (if_neg ?_)
  rw [isDue_iff]
  exact fun ⟨hopen, hdue⟩ => h.elim (· hopen) (· hdue)

theorem execPresenceTimerExpiry_due {s : State} {d : Slot} (hopen : (s.slot d).state = .opened)
    (hdue : (s.slot d).timer = some 0) : execPresenceTimerExpiry d s = .next (s.absence d) :=
  congrArg Host.Outcome.next (if_pos ⟨hopen, isDue_iff.2 hdue⟩)

/-- An accepted bundle finds its slot OPEN and its presence timer loaded (R113, R115, R144). -/
theorem accepted_reloads {s t : State} {d : Slot} {bytes : List Byte} {stray : Fin 8} (hd : d ≠ 0)
    (ht : exec (.writeBundle d bytes stray) s = .next t) (hacc : t.port.lastOutcome = .accepted) :
    (t.slot d).state = .opened ∧ (t.slot d).timer = some (1000 * (s.slot d).timeout) := by
  have hjudged : (s.shiftOut (zeros bytes.length)).judgeFrame d (parseBundle bytes stray) = t :=
    Host.Outcome.next.inj ht
  subst hjudged
  cases hb : parseBundle bytes stray with
  | error p =>
    rw [hb, (judgeFrame_malformed _ d p).2.1] at hacc
    cases hacc
  | ok b =>
    rw [hb] at hacc
    by_cases hclosed : (s.slot d).state = .closed
    · rw [(judgeFrame_closed (s := s.shiftOut _) hclosed b).2] at hacc
      cases hacc
    by_cases hfull : 8 ≤ (s.slot d).requests.length
    · rw [(judgeFrame_full (s := s.shiftOut _) hclosed hfull b).2] at hacc
      cases hacc
    · have haccepted := (judgeFrame_accepted (s := s.shiftOut (zeros bytes.length)) hclosed hfull b).1
      rw [accept_eq, if_neg hd, if_neg hd] at haccepted
      rw [haccepted]
      exact ⟨rfl, rfl⟩

section Absence
variable (s : State) (d : Slot)

/-- The inputs that the slot owns or waits for left, input by input. -/
def leftBy : State := s.atInputs (fun x => x.owner == some d || x.queue.contains d) fun _ e => e.leave d

theorem visited_leftBy : Visited s (fun _ e => e.leave d)
    (fun k => (s.inp k).owner = some d ∨ d ∈ (s.inp k).queue) (leftBy s d) :=
  (visited_atInputs (f := fun _ e => e.leave d) (fun _ _ _ _ => rfl) s
    fun x => x.owner == some d || x.queue.contains d).congr fun k => by
      rw [Bool.or_eq_true, beq_iff_eq, List.contains_iff_mem]

variable {s d}

/-- The record that goes ABSENT keeps marks, flags and pulse window (R114). -/
theorem goAbsent_notices (u : State) (c : Slot) :
    ((u.modSlot d SlotRec.goAbsent).slot c).marks = (u.slot c).marks ∧
      ((u.modSlot d SlotRec.goAbsent).slot c).flags = (u.slot c).flags ∧
      ((u.modSlot d SlotRec.goAbsent).slot c).pulse = (u.slot c).pulse := by
  rw [State.modSlot_slot]
  split <;> exact ⟨rfl, rfl, rfl⟩

theorem sameButNotices_goAbsent {r q : SlotRec} (h : r.sameButNotices q) : r.goAbsent.sameButNotices q.goAbsent :=
  congrArg SlotRec.goAbsent h

end Absence

/-- Settles O49: no expiry that is not due, none behind an accepted bundle, and the inputs that a due one leaves. -/
theorem presenceExpiryMakesAbsent : Obligations.PresenceExpiryMakesAbsent := by
  intro s d
  refine ⟨execPresenceTimerExpiry_early, fun bytes stray t hd htimeout ht hacc => ?_, fun hopen hdue => ?_⟩
  · obtain ⟨hstate, htimer⟩ := accepted_reloads hd ht hacc
    refine ⟨execPresenceTimerExpiry_early (.inr ?_), hstate⟩
    rw [htimer, Ne, Option.some.injEq]
    omega
  have hvisited := visited_leftBy s d
  have hraises : RaisesLeaving s d fun _ e => e.leave d := fun _ => rfl
  refine ⟨(leftBy s d).modSlot d SlotRec.goAbsent, execPresenceTimerExpiry_due hopen hdue, ?_, fun k => ?_, ?_,
    fun c hc => ?_, fun c => ?_⟩
  · exact restKept_modSlot (State.atInputs_rest s
      (fun x => x.owner == some d || x.queue.contains d) fun _ e => e.leave d).2 _ _
  · intro x
    rw [State.modSlot_inp]
    by_cases hk : x.owner = some d ∨ d ∈ x.queue
    · rw [hvisited.visited k hk, State.evAt, leave_eq]
    · obtain ⟨ho, hq⟩ := not_or.1 hk
      have hqueue : x.queue.filter (· != d) = x.queue :=
        List.filter_eq_self.2 fun c hc => bne_iff_ne.2 fun hcd => hq (hcd ▸ hc)
      rw [hvisited.unvisited k hk, if_neg ho, hqueue]
  · rw [State.modSlot_slot_self]
    exact sameButNotices_goAbsent (hvisited.slots d)
  · rw [State.modSlot_slot_ne _ _ hc]
    exact hvisited.slots c
  obtain ⟨hmarks, hflags, hpulse⟩ := goAbsent_notices (d := d) (leftBy s d) c
  rw [hmarks, hflags, hpulse]
  refine ⟨pulse_leaving hvisited hraises c, fun n => ?_, fun k => ?_⟩
  · rw [hvisited.flags, raisedAt_leaving hraises]
    refine or_congr_right (and_congr_right fun _ => and_congr_right fun _ => exists_congr fun k => ?_)
    exact ⟨And.right, fun h => ⟨.inl h.1, h⟩⟩
  · rw [hvisited.marks]
    refine or_congr_right ?_
    have hholds : ((s.evAt k fun _ e => e.leave d).inp).holds c = (s.inp k).holds c := by
      rw [State.evAt, leave_holds]
    rw [and_left_comm, ← hholds]
    refine and_congr_right fun hk => ?_
    exact markedAt_leaving hraises (leave_view_ne hk) c

end Sys2Proof.LeavingProofs
end
